-- ==== Sys2Proof/Word.lean ====
section
/-! DEFINITION. The two widths in which values pass over the serial links: a byte, and a two-byte value sent high
byte first (chapter 13). Everything else in the model is a number, a name or a list. -/

namespace Sys2Proof

/-- One byte of a serial frame. -/
abbrev Byte := BitVec 8

/-- A two-byte field of a frame. -/
abbrev Word := BitVec 16

end Sys2Proof
end

