-- ==== Sys2Proof/Syntax.lean ====
section
/-! DEFINITION. The names of the things the HX-816 counts (zones, groups, fans, channels, windows), tables over
them, the wired inputs, and the ONE inductive of commands: one constructor for each row of the spec's table of
operations and events. -/

namespace Sys2Proof

/-- The zones Z1–Z8 (00_scope.md, Numbering). -/
inductive Zone where
  | z1 | z2 | z3 | z4 | z5 | z6 | z7 | z8
  deriving DecidableEq, Repr, Inhabited

/-- The number the spec gives it, counted from 1. -/
def Zone.number : Zone → Nat
  | .z1 => 1
  | .z2 => 2
  | .z3 => 3
  | .z4 => 4
  | .z5 => 5
  | .z6 => 6
  | .z7 => 7
  | .z8 => 8

/-- The one with a number, if the number names one (R177 refuses the others with RANGE). -/
def Zone.ofNumber? : Nat → Option Zone
  | 1 => some .z1
  | 2 => some .z2
  | 3 => some .z3
  | 4 => some .z4
  | 5 => some .z5
  | 6 => some .z6
  | 7 => some .z7
  | 8 => some .z8
  | _ => none

/-- All of them, in ascending number. -/
def Zone.all : List Zone :=
  [.z1, .z2, .z3, .z4, .z5, .z6, .z7, .z8]

/-- One entry for each zone. -/
structure PerZone (α : Type) where
  z1 : α
  z2 : α
  z3 : α
  z4 : α
  z5 : α
  z6 : α
  z7 : α
  z8 : α
  deriving DecidableEq, Repr, Inhabited

/-- The entry at `i`. -/
def PerZone.get {α : Type} (t : PerZone α) : Zone → α
  | .z1 => t.z1
  | .z2 => t.z2
  | .z3 => t.z3
  | .z4 => t.z4
  | .z5 => t.z5
  | .z6 => t.z6
  | .z7 => t.z7
  | .z8 => t.z8

/-- The table with the entry at `i` replaced. -/
def PerZone.set {α : Type} (t : PerZone α) (i : Zone) (x : α) : PerZone α :=
  match i with
  | .z1 => { t with z1 := x }
  | .z2 => { t with z2 := x }
  | .z3 => { t with z3 := x }
  | .z4 => { t with z4 := x }
  | .z5 => { t with z5 := x }
  | .z6 => { t with z6 := x }
  | .z7 => { t with z7 := x }
  | .z8 => { t with z8 := x }

/-- The table whose entry at each `i` is `f i`. -/
def PerZone.build {α : Type} (f : Zone → α) : PerZone α :=
  ⟨f .z1, f .z2, f .z3, f .z4, f .z5, f .z6, f .z7, f .z8⟩

/-- The extract groups G1–G4. -/
inductive Group where
  | g1 | g2 | g3 | g4
  deriving DecidableEq, Repr, Inhabited

/-- The number the spec gives it, counted from 1. -/
def Group.number : Group → Nat
  | .g1 => 1
  | .g2 => 2
  | .g3 => 3
  | .g4 => 4

/-- The one with a number, if the number names one (R177 refuses the others with RANGE). -/
def Group.ofNumber? : Nat → Option Group
  | 1 => some .g1
  | 2 => some .g2
  | 3 => some .g3
  | 4 => some .g4
  | _ => none

/-- All of them, in ascending number. -/
def Group.all : List Group :=
  [.g1, .g2, .g3, .g4]

/-- One entry for each extract group. -/
structure PerGroup (α : Type) where
  g1 : α
  g2 : α
  g3 : α
  g4 : α
  deriving DecidableEq, Repr, Inhabited

/-- The entry at `i`. -/
def PerGroup.get {α : Type} (t : PerGroup α) : Group → α
  | .g1 => t.g1
  | .g2 => t.g2
  | .g3 => t.g3
  | .g4 => t.g4

/-- The table with the entry at `i` replaced. -/
def PerGroup.set {α : Type} (t : PerGroup α) (i : Group) (x : α) : PerGroup α :=
  match i with
  | .g1 => { t with g1 := x }
  | .g2 => { t with g2 := x }
  | .g3 => { t with g3 := x }
  | .g4 => { t with g4 := x }

/-- The table whose entry at each `i` is `f i`. -/
def PerGroup.build {α : Type} (f : Group → α) : PerGroup α :=
  ⟨f .g1, f .g2, f .g3, f .g4⟩

/-- The fans F1–F12. -/
inductive Fan where
  | f1 | f2 | f3 | f4 | f5 | f6 | f7 | f8 | f9 | f10 | f11 | f12
  deriving DecidableEq, Repr, Inhabited

/-- The number the spec gives it, counted from 1. -/
def Fan.number : Fan → Nat
  | .f1 => 1
  | .f2 => 2
  | .f3 => 3
  | .f4 => 4
  | .f5 => 5
  | .f6 => 6
  | .f7 => 7
  | .f8 => 8
  | .f9 => 9
  | .f10 => 10
  | .f11 => 11
  | .f12 => 12

/-- The one with a number, if the number names one (R177 refuses the others with RANGE). -/
def Fan.ofNumber? : Nat → Option Fan
  | 1 => some .f1
  | 2 => some .f2
  | 3 => some .f3
  | 4 => some .f4
  | 5 => some .f5
  | 6 => some .f6
  | 7 => some .f7
  | 8 => some .f8
  | 9 => some .f9
  | 10 => some .f10
  | 11 => some .f11
  | 12 => some .f12
  | _ => none

/-- All of them, in ascending number. -/
def Fan.all : List Fan :=
  [.f1, .f2, .f3, .f4, .f5, .f6, .f7, .f8, .f9, .f10, .f11, .f12]

/-- One entry for each fan. -/
structure PerFan (α : Type) where
  f1 : α
  f2 : α
  f3 : α
  f4 : α
  f5 : α
  f6 : α
  f7 : α
  f8 : α
  f9 : α
  f10 : α
  f11 : α
  f12 : α
  deriving DecidableEq, Repr, Inhabited

/-- The entry at `i`. -/
def PerFan.get {α : Type} (t : PerFan α) : Fan → α
  | .f1 => t.f1
  | .f2 => t.f2
  | .f3 => t.f3
  | .f4 => t.f4
  | .f5 => t.f5
  | .f6 => t.f6
  | .f7 => t.f7
  | .f8 => t.f8
  | .f9 => t.f9
  | .f10 => t.f10
  | .f11 => t.f11
  | .f12 => t.f12

/-- The table with the entry at `i` replaced. -/
def PerFan.set {α : Type} (t : PerFan α) (i : Fan) (x : α) : PerFan α :=
  match i with
  | .f1 => { t with f1 := x }
  | .f2 => { t with f2 := x }
  | .f3 => { t with f3 := x }
  | .f4 => { t with f4 := x }
  | .f5 => { t with f5 := x }
  | .f6 => { t with f6 := x }
  | .f7 => { t with f7 := x }
  | .f8 => { t with f8 := x }
  | .f9 => { t with f9 := x }
  | .f10 => { t with f10 := x }
  | .f11 => { t with f11 := x }
  | .f12 => { t with f12 := x }

/-- The table whose entry at each `i` is `f i`. -/
def PerFan.build {α : Type} (f : Fan → α) : PerFan α :=
  ⟨f .f1, f .f2, f .f3, f .f4, f .f5, f .f6, f .f7, f .f8, f .f9, f .f10, f .f11, f .f12⟩

/-- The sensing channels C1–C16. -/
inductive Channel where
  | c1 | c2 | c3 | c4 | c5 | c6 | c7 | c8 | c9 | c10 | c11 | c12 | c13 | c14 | c15 | c16
  deriving DecidableEq, Repr, Inhabited

/-- The number the spec gives it, counted from 1. -/
def Channel.number : Channel → Nat
  | .c1 => 1
  | .c2 => 2
  | .c3 => 3
  | .c4 => 4
  | .c5 => 5
  | .c6 => 6
  | .c7 => 7
  | .c8 => 8
  | .c9 => 9
  | .c10 => 10
  | .c11 => 11
  | .c12 => 12
  | .c13 => 13
  | .c14 => 14
  | .c15 => 15
  | .c16 => 16

/-- The one with a number, if the number names one (R177 refuses the others with RANGE). -/
def Channel.ofNumber? : Nat → Option Channel
  | 1 => some .c1
  | 2 => some .c2
  | 3 => some .c3
  | 4 => some .c4
  | 5 => some .c5
  | 6 => some .c6
  | 7 => some .c7
  | 8 => some .c8
  | 9 => some .c9
  | 10 => some .c10
  | 11 => some .c11
  | 12 => some .c12
  | 13 => some .c13
  | 14 => some .c14
  | 15 => some .c15
  | 16 => some .c16
  | _ => none

/-- All of them, in ascending number. -/
def Channel.all : List Channel :=
  [.c1, .c2, .c3, .c4, .c5, .c6, .c7, .c8, .c9, .c10, .c11, .c12, .c13, .c14, .c15, .c16]

/-- One entry for each sensing channel. -/
structure PerChannel (α : Type) where
  c1 : α
  c2 : α
  c3 : α
  c4 : α
  c5 : α
  c6 : α
  c7 : α
  c8 : α
  c9 : α
  c10 : α
  c11 : α
  c12 : α
  c13 : α
  c14 : α
  c15 : α
  c16 : α
  deriving DecidableEq, Repr, Inhabited

/-- The entry at `i`. -/
def PerChannel.get {α : Type} (t : PerChannel α) : Channel → α
  | .c1 => t.c1
  | .c2 => t.c2
  | .c3 => t.c3
  | .c4 => t.c4
  | .c5 => t.c5
  | .c6 => t.c6
  | .c7 => t.c7
  | .c8 => t.c8
  | .c9 => t.c9
  | .c10 => t.c10
  | .c11 => t.c11
  | .c12 => t.c12
  | .c13 => t.c13
  | .c14 => t.c14
  | .c15 => t.c15
  | .c16 => t.c16

/-- The table with the entry at `i` replaced. -/
def PerChannel.set {α : Type} (t : PerChannel α) (i : Channel) (x : α) : PerChannel α :=
  match i with
  | .c1 => { t with c1 := x }
  | .c2 => { t with c2 := x }
  | .c3 => { t with c3 := x }
  | .c4 => { t with c4 := x }
  | .c5 => { t with c5 := x }
  | .c6 => { t with c6 := x }
  | .c7 => { t with c7 := x }
  | .c8 => { t with c8 := x }
  | .c9 => { t with c9 := x }
  | .c10 => { t with c10 := x }
  | .c11 => { t with c11 := x }
  | .c12 => { t with c12 := x }
  | .c13 => { t with c13 := x }
  | .c14 => { t with c14 := x }
  | .c15 => { t with c15 := x }
  | .c16 => { t with c16 := x }

/-- The table whose entry at each `i` is `f i`. -/
def PerChannel.build {α : Type} (f : Channel → α) : PerChannel α :=
  ⟨f .c1, f .c2, f .c3, f .c4, f .c5, f .c6, f .c7, f .c8, f .c9, f .c10, f .c11, f .c12, f .c13, f .c14, f .c15, f .c16⟩

/-- The pull-out windows 1–4. -/
inductive WindowNo where
  | w1 | w2 | w3 | w4
  deriving DecidableEq, Repr, Inhabited

/-- The number the spec gives it, counted from 1. -/
def WindowNo.number : WindowNo → Nat
  | .w1 => 1
  | .w2 => 2
  | .w3 => 3
  | .w4 => 4

/-- The one with a number, if the number names one (R177 refuses the others with RANGE). -/
def WindowNo.ofNumber? : Nat → Option WindowNo
  | 1 => some .w1
  | 2 => some .w2
  | 3 => some .w3
  | 4 => some .w4
  | _ => none

/-- All of them, in ascending number. -/
def WindowNo.all : List WindowNo :=
  [.w1, .w2, .w3, .w4]

/-- One entry for each pull-out window. -/
structure PerWindow (α : Type) where
  w1 : α
  w2 : α
  w3 : α
  w4 : α
  deriving DecidableEq, Repr, Inhabited

/-- The entry at `i`. -/
def PerWindow.get {α : Type} (t : PerWindow α) : WindowNo → α
  | .w1 => t.w1
  | .w2 => t.w2
  | .w3 => t.w3
  | .w4 => t.w4

/-- The table with the entry at `i` replaced. -/
def PerWindow.set {α : Type} (t : PerWindow α) (i : WindowNo) (x : α) : PerWindow α :=
  match i with
  | .w1 => { t with w1 := x }
  | .w2 => { t with w2 := x }
  | .w3 => { t with w3 := x }
  | .w4 => { t with w4 := x }

/-- The table whose entry at each `i` is `f i`. -/
def PerWindow.build {α : Type} (f : WindowNo → α) : PerWindow α :=
  ⟨f .w1, f .w2, f .w3, f .w4⟩

/-- The two serial links (R192). -/
inductive Link where
  | bLink
  | fLink
  deriving DecidableEq, Repr

/-- The three positions of a zone switch of the fire service panel (R92). -/
inductive SwitchPosition where
  | auto
  | exhaust
  | off
  deriving DecidableEq, Repr

/-- The two end switches of a damper (R103). -/
inductive EndSwitch where
  | openEnd
  | closedEnd
  deriving DecidableEq, Repr

/-- The three filtered inputs of a fan drive (R135). -/
inductive DriveInput where
  | running
  | airflow
  | driveFault
  deriving DecidableEq, Repr

/-- The two contacts of the transfer switch (R162). -/
inductive SupplyInput where
  | mainsHealthy
  | generatorOnline
  deriving DecidableEq, Repr

/-- Levels of the input lines that the part reads at the moment normal operation begins, without waiting for a
filter (R101, R115, R161, R168). A true level is an active or made line. -/
structure Lines where
  exhaustLine : PerZone Bool
  offLine : PerZone Bool
  panelKey : Bool
  commissioningKey : Bool
  lampTest : Bool
  openSwitch : PerZone Bool
  closedSwitch : PerZone Bool
  running : PerFan Bool
  airflow : PerFan Bool
  driveFault : PerFan Bool
  mainsHealthy : Bool
  generatorOnline : Bool
  deriving DecidableEq, Repr

/-- The commands: one constructor for each row of spec/opcode_table.json, in the table's order.
A request of the B-link stands for the taking of a frame that carries it (R177), with the fields of its payload
(section 13.3) as operands; an event of a line or a timer names the line or the timer. -/
inductive Instr where
  /-- POWER_ON_RESET: power is applied while the strap lines read `straps` (R175, R187). -/
  | powerOnReset (straps : BitVec 5)
  /-- LOADING_COMPLETE: the six blocks have been read; the input lines stand at `lines` (R187). -/
  | loadingComplete (lines : Lines)
  /-- B_FRAME_COMPLETE: the bytes of a frame, lead byte first, have arrived on the B-link (R176). -/
  | bFrameComplete (bytes : List Byte)
  /-- INTERBYTE_GAP_TIMEOUT: more than 20 ms have passed since a byte of the frame in progress (R192). -/
  | interbyteGapTimeout (link : Link)
  /-- B_FRAME_TAKEN: BLI takes the head of the receive queue (R177). -/
  | bFrameTaken
  /-- UNKNOWN_REQUEST: a taken frame that is none of the listed requests (R177). -/
  | unknownRequest (kind : Byte) (payload : List Byte)
  | readSummary
  | readZone (z : Byte)
  | readGroup (g : Byte)
  | readFan (f : Byte)
  | readChannel (c : Byte)
  | fetchEvents
  | claimExhaust (z d : Byte)
  | claimShut (z : Byte)
  | release (z : Byte)
  | setBudget (cap : Word)
  | clearBudget
  | setClock (day : Byte) (minute : Word) (second : Byte)
  | adjustClock
  | inhibit (c : Byte) (t : Word)
  | restore (c : Byte)
  | lockFan (f : Byte)
  | unlockFan (f : Byte)
  | resetFan (f : Byte)
  | openEdit (b : Byte)
  | writeItem (item value : Word)
  | commitEdit
  | abandonEdit
  | readSetting (b : Byte) (item : Word)
  /-- RESTART: `straps` are the strap lines' levels, read if the restart is taken (R175, R184). -/
  | restart (straps : BitVec 5)
  | clearLink
  | bLinkSupervisionExpiry
  /-- F_FRAME_RECEIVED: the bytes of a frame, lead byte first, have arrived on the F-link (R71, R72). -/
  | fFrameReceived (bytes : List Byte)
  /-- ZONE_STATE_FRAME: FIF takes the frame in its receive slot (R72, R73). -/
  | zoneStateFrame
  | fLinkSupervisionExpiry
  | generalFireContactChange (active : Bool)
  | zoneSwitchChange (z : Zone) (position : SwitchPosition)
  | switchFault (z : Zone)
  | panelInControlKeyChange (on : Bool)
  | commissioningKeyChange (on : Bool)
  | lampTestChange (held : Bool)
  /-- CHANNEL_SAMPLE: one conversion of channel `c` gives the raw code `q` (R34). -/
  | channelSample (c : Channel) (q : BitVec 10)
  | inhibitExpiry (c : Channel)
  | alarmDelayExpiry (c : Channel)
  | runOnExpiry (z : Zone)
  | endSwitchChange (z : Zone) (switch : EndSwitch) (made : Bool)
  | travelExpiry (z : Zone)
  | startSpacingExpiry
  | runningFeedback (f : Fan)
  | airflowProven (f : Fan)
  | driveFault (f : Fan)
  | runTimeout (f : Fan)
  | airflowTimeout (f : Fan)
  | airflowLoss (f : Fan)
  | coastExpiry (f : Fan)
  | rampPeriodEnd
  | supplyInputChange (input : SupplyInput) (made : Bool)
  | settleExpiry
  | minuteBoundary
  | settingsWriteComplete
  | characterFramingError (link : Link)
  | leadByte (link : Link)
  | clockSecond
  | driveInputChange (f : Fan) (input : DriveInput) (made : Bool)
  | powerLoss
  deriving DecidableEq, Repr

end Sys2Proof
end

