-- ==== Sys2Proof/Config.lean ====
section
/-! DEFINITION. What the part fixes (values the spec calls fixed and not settings) and the two values it leaves
open: the levels of the outputs of a part without power, and of the strap lines at a RESTART that comes as a frame. -/

namespace Sys2Proof.Config

/-- The inhibit list holds at most four entries (R43). -/
def maxInhibits : Nat := 4

/-- The B-link receive queue holds at most two frames (R175). -/
def receiveQueueLength : Nat := 2

/-- A fire-class fan has three start attempts (section 8.1, R153). -/
def maxAttempts : Nat := 3

/-- Consecutive samples that confirm a channel fault, or end one (R35, R37). -/
def faultRun : Nat := 3

/-- A speed cap is searched from 100 down to this value (R127). -/
def lowestCap : Nat := 20

/-- A frame's payload has at most this many bytes (R192). -/
def maxPayload : Nat := 250

/-- The levels of a zone's three lamps (R97). -/
structure ZoneLamps where
  opened : Bool
  shut : Bool
  fault : Bool
  deriving DecidableEq, Repr, Inhabited

/-- The levels of a group's two lamps (R98). -/
structure GroupLamps where
  run : Bool
  trip : Bool
  deriving DecidableEq, Repr, Inhabited

/-- The levels of the wired outputs, but for the trouble contact, whose unpowered level R86 states. -/
structure OutputLevels where
  damperOpen : PerZone Bool
  run : PerFan Bool
  speed : PerFan Nat
  fireOverride : PerFan Bool
  zoneLamps : PerZone ZoneLamps
  groupLamps : PerGroup GroupLamps
  attention : Bool
  deriving DecidableEq, Repr, Inhabited

/-- A FREE VALUE: the state to which every output falls when power is lost (POWER_LOSS, opcode table). The spec
names that state and does not say what level each output has in it (log entry 4). -/
opaque unpoweredOutputs : OutputLevels

/-- A FREE VALUE: the level of the strap lines at a RESTART that comes as a frame, which no operand of its command gives
(R175; log entry 2). It is applied to the model's count of such frames, so that each restart reads a level of its own. -/
opaque strapLines : Nat → BitVec 5

end Sys2Proof.Config
end

