-- ==== Sys2Proof/Machine/Settings.lean ====
section
/-! DEFINITION. The six settings blocks: their items, factory defaults, item numbers (section 13.5), ranges and the
cross-field rules of a commit (R189). -/

namespace Sys2Proof.Machine

/-! ## Masks of zones and days -/

/-- Whether a mask names zone `z`: bit z − 1 (section 13.5). -/
def maskHas (m : BitVec 8) (z : Zone) : Bool := m.getLsbD (z.number - 1)

/-- The zones a mask names, in ascending number. -/
def maskZones (m : BitVec 8) : List Zone := Zone.all.filter (maskHas m)

/-- The mask that names the zones for which `f` holds. -/
def maskOf (f : Zone → Bool) : BitVec 8 :=
  Zone.all.foldl (fun m z => if f z then m ||| (1#8 <<< (z.number - 1)) else m) 0#8

/-- Whether a day mask names day `d` of 1..7: bit d − 1 (section 13.5). -/
def dayMaskHas (m : BitVec 7) (d : Nat) : Bool := m.getLsbD (d - 1)

/-! ## The blocks -/

/-- The ZONES block (section 12.1). -/
structure ZonesBlock where
  group : PerZone Group
  adjacency : PerZone (BitVec 8)
  contactExhaust : BitVec 8
  originLimit : Nat
  deriving DecidableEq, Repr

/-- The FANS block (section 12.1). -/
structure FansBlock where
  group : PerFan (Option Group)
  rated : PerFan Nat
  vMin : PerGroup Nat
  deriving DecidableEq, Repr

/-- The gas kinds (section 2.1). -/
inductive GasKind where
  | co
  | no2
  | flammable
  deriving DecidableEq, Repr

/-- The eight CHANNELS settings of one channel (sections 2.1 and 3.1). -/
structure ChannelSetting where
  zone : Option Zone
  kind : GasKind
  fullScale : Nat
  start : Nat
  alarm1 : Nat
  alarm2 : Nat
  hysteresis : Nat
  alarmDelay : Nat
  deriving DecidableEq, Repr

/-- The three CHANNELS settings of one zone (section 3.1). -/
structure ZoneVenting where
  vStart : Nat
  runOn : Nat
  faultDemand : Nat
  deriving DecidableEq, Repr

/-- The CHANNELS block (section 12.1). -/
structure ChannelsBlock where
  channel : PerChannel ChannelSetting
  zone : PerZone ZoneVenting
  deriving DecidableEq, Repr

/-- The TIMERS block (section 12.1). -/
structure TimersBlock where
  travel : Nat
  tRun : Nat
  tProve : Nat
  spacing : Nat
  coast : Nat
  rampStep : Nat
  settle : Nat
  fLink : Nat
  bLink : Nat
  inhibit : Nat
  deriving DecidableEq, Repr

/-- The BUDGET block (section 12.1). -/
structure BudgetBlock where
  mains : Nat
  generator : Nat
  deriving DecidableEq, Repr

/-- One pull-out window record (section 10.2). `stop` is the end minute. -/
structure Window where
  days : BitVec 7
  start : Nat
  stop : Nat
  zones : BitVec 8
  demand : Nat
  deriving DecidableEq, Repr

/-- The values of all six blocks; the WINDOWS block is the table of the four window records. -/
structure Settings where
  zones : ZonesBlock
  fans : FansBlock
  channels : ChannelsBlock
  timers : TimersBlock
  budget : BudgetBlock
  windows : PerWindow Window
  deriving DecidableEq, Repr

/-- The six blocks by name (section 12.1). -/
inductive Block where
  | zones
  | fans
  | channels
  | timers
  | budget
  | windows
  deriving DecidableEq, Repr

/-- The block a number names, 1..6 (section 12.1). -/
def Block.ofNumber? : Nat → Option Block
  | 1 => some .zones
  | 2 => some .fans
  | 3 => some .channels
  | 4 => some .timers
  | 5 => some .budget
  | 6 => some .windows
  | _ => none

/-- The six blocks in number order. -/
def Block.all : List Block := [.zones, .fans, .channels, .timers, .budget, .windows]

/-- ZONES and FANS are protected by the commissioning key and by the state condition (R96, R189). -/
def Block.protected? : Block → Bool
  | .zones => true
  | .fans => true
  | _ => false

/-- One flag for each block. -/
structure PerBlock where
  zones : Bool
  fans : Bool
  channels : Bool
  timers : Bool
  budget : Bool
  windows : Bool
  deriving DecidableEq, Repr

/-- The flag of one block. -/
def PerBlock.get (t : PerBlock) : Block → Bool
  | .zones => t.zones
  | .fans => t.fans
  | .channels => t.channels
  | .timers => t.timers
  | .budget => t.budget
  | .windows => t.windows

/-- The flags with that of `b` replaced. -/
def PerBlock.set (t : PerBlock) (b : Block) (x : Bool) : PerBlock :=
  match b with
  | .zones => { t with zones := x }
  | .fans => { t with fans := x }
  | .channels => { t with channels := x }
  | .timers => { t with timers := x }
  | .budget => { t with budget := x }
  | .windows => { t with windows := x }

/-- Whether any block's flag is set. -/
def PerBlock.any (t : PerBlock) : Bool := Block.all.any t.get

/-- A full copy of one block: what an edit buffer and a stored block hold (R188). -/
inductive BlockValue where
  | zones (v : ZonesBlock)
  | fans (v : FansBlock)
  | channels (v : ChannelsBlock)
  | timers (v : TimersBlock)
  | budget (v : BudgetBlock)
  | windows (v : PerWindow Window)
  deriving DecidableEq, Repr

/-- Which block a copy is of. -/
def BlockValue.block : BlockValue → Block
  | .zones _ => .zones
  | .fans _ => .fans
  | .channels _ => .channels
  | .timers _ => .timers
  | .budget _ => .budget
  | .windows _ => .windows

/-- A copy of block `b` of the settings. -/
def Settings.copy (s : Settings) : Block → BlockValue
  | .zones => .zones s.zones
  | .fans => .fans s.fans
  | .channels => .channels s.channels
  | .timers => .timers s.timers
  | .budget => .budget s.budget
  | .windows => .windows s.windows

/-- The settings with one block replaced by a copy. -/
def Settings.put (s : Settings) : BlockValue → Settings
  | .zones v => { s with zones := v }
  | .fans v => { s with fans := v }
  | .channels v => { s with channels := v }
  | .timers v => { s with timers := v }
  | .budget v => { s with budget := v }
  | .windows v => { s with windows := v }

/-! ## Factory defaults -/

/-- Zone i in group G(i/2 rounded up) (section 7.1). -/
def defaultZoneGroup : Zone → Group
  | .z1 => .g1 | .z2 => .g1 | .z3 => .g2 | .z4 => .g2
  | .z5 => .g3 | .z6 => .g3 | .z7 => .g4 | .z8 => .g4

/-- The zones z − 1 and z + 1, where they exist (section 1.5). -/
def defaultAdjacency (z : Zone) : BitVec 8 :=
  maskOf fun n => n.number + 1 == z.number || z.number + 1 == n.number

/-- F1–F3 in G1, F4–F6 in G2, F7–F9 in G3, F10–F12 in G4 (section 7.1). -/
def defaultFanGroup (f : Fan) : Option Group := Group.ofNumber? ((f.number - 1) / 3 + 1)

/-- C(2i−1) and C(2i) in zone Zi; CO for odd numbers, NO2 for even (sections 2.1 and 3.1). -/
def defaultChannel (c : Channel) : ChannelSetting :=
  let z := Zone.ofNumber? ((c.number - 1) / 2 + 1)
  if c.number % 2 = 1 then
    { zone := z, kind := .co, fullScale := 2500, start := 250, alarm1 := 350, alarm2 := 1000, hysteresis := 20,
      alarmDelay := 60 }
  else
    { zone := z, kind := .no2, fullScale := 200, start := 30, alarm1 := 50, alarm2 := 100, hysteresis := 3,
      alarmDelay := 60 }

/-- The factory defaults of every item (sections 1.5, 2.1, 3.1, 4.1, 6.1, 7.1, 8.1, 9.1, 10.2, 11.1, 12.1). -/
def factory : Settings where
  zones :=
    { group := .build defaultZoneGroup, adjacency := .build defaultAdjacency, contactExhaust := 255#8,
      originLimit := 1 }
  fans := { group := .build defaultFanGroup, rated := .build fun _ => 220, vMin := .build fun _ => 30 }
  channels :=
    { channel := .build defaultChannel, zone := .build fun _ => { vStart := 20, runOn := 300, faultDemand := 50 } }
  timers :=
    { travel := 60, tRun := 10, tProve := 30, spacing := 8, coast := 90, rampStep := 5, settle := 10, fLink := 6,
      bLink := 60, inhibit := 1800 }
  budget := { mains := 2000, generator := 900 }
  windows := .build fun _ => { days := 0#7, start := 0, stop := 0, zones := 0#8, demand := 10 }

/-! ## Items by number (section 13.5) -/

/-- The number that stands for a zone setting; none is 0. -/
def zoneCode : Option Zone → Nat
  | none => 0
  | some z => z.number

/-- The number that stands for a fan's group; none is 0. -/
def groupCode : Option Group → Nat
  | none => 0
  | some g => g.number

/-- The number that stands for a gas kind. -/
def GasKind.code : GasKind → Nat
  | .co => 1
  | .no2 => 2
  | .flammable => 3

/-- The gas kind a number stands for. -/
def GasKind.ofCode? : Nat → Option GasKind
  | 1 => some .co
  | 2 => some .no2
  | 3 => some .flammable
  | _ => none

/-- `v` if it lies in lo..hi. -/
def inRange (lo hi v : Nat) : Option Nat := if lo ≤ v ∧ v ≤ hi then some v else none

/-- The value of item `i` of a ZONES block. -/
def ZonesBlock.item (b : ZonesBlock) (i : Nat) : Option Nat :=
  match Zone.ofNumber? i, Zone.ofNumber? (i - 8) with
  | some z, _ => some (b.group.get z).number
  | none, some z => some (b.adjacency.get z).toNat
  | none, none =>
    if i = 17 then some b.contactExhaust.toNat else if i = 18 then some b.originLimit else none

/-- The block with item `i` set to `v`, if both are in range. -/
def ZonesBlock.write (b : ZonesBlock) (i v : Nat) : Option ZonesBlock :=
  match Zone.ofNumber? i, Zone.ofNumber? (i - 8) with
  | some z, _ => (Group.ofNumber? v).map fun g => { b with group := b.group.set z g }
  | none, some z => (inRange 0 255 v).map fun v => { b with adjacency := b.adjacency.set z (.ofNat 8 v) }
  | none, none =>
    if i = 17 then (inRange 0 255 v).map fun v => { b with contactExhaust := .ofNat 8 v }
    else if i = 18 then (inRange 1 3 v).map fun v => { b with originLimit := v }
    else none

/-- The value of item `i` of a FANS block. -/
def FansBlock.item (b : FansBlock) (i : Nat) : Option Nat :=
  match Fan.ofNumber? i, Fan.ofNumber? (i - 12), Group.ofNumber? (i - 24) with
  | some f, _, _ => some (groupCode (b.group.get f))
  | none, some f, _ => some (b.rated.get f)
  | none, none, some g => some (b.vMin.get g)
  | none, none, none => none

/-- The block with item `i` set to `v`, if both are in range. -/
def FansBlock.write (b : FansBlock) (i v : Nat) : Option FansBlock :=
  match Fan.ofNumber? i, Fan.ofNumber? (i - 12), Group.ofNumber? (i - 24) with
  | some f, _, _ => (inRange 0 4 v).map fun v => { b with group := b.group.set f (Group.ofNumber? v) }
  | none, some f, _ => (inRange 1 1500 v).map fun v => { b with rated := b.rated.set f v }
  | none, none, some g => (inRange 20 60 v).map fun v => { b with vMin := b.vMin.set g v }
  | none, none, none => none

/-- The value of the `k`-th of a channel's eight items, counted from 0. -/
def ChannelSetting.item (s : ChannelSetting) : Nat → Option Nat
  | 0 => some (zoneCode s.zone)
  | 1 => some s.kind.code
  | 2 => some s.fullScale
  | 3 => some s.start
  | 4 => some s.alarm1
  | 5 => some s.alarm2
  | 6 => some s.hysteresis
  | 7 => some s.alarmDelay
  | _ => none

/-- A channel's settings with the `k`-th item set to `v`, if in range. -/
def ChannelSetting.write (s : ChannelSetting) (k v : Nat) : Option ChannelSetting :=
  match k with
  | 0 => (inRange 0 8 v).map fun v => { s with zone := Zone.ofNumber? v }
  | 1 => (GasKind.ofCode? v).map fun k => { s with kind := k }
  | 2 => (inRange 10 10000 v).map fun v => { s with fullScale := v }
  | 3 => (inRange 1 10000 v).map fun v => { s with start := v }
  | 4 => (inRange 1 10000 v).map fun v => { s with alarm1 := v }
  | 5 => (inRange 1 10000 v).map fun v => { s with alarm2 := v }
  | 6 => (inRange 0 9999 v).map fun v => { s with hysteresis := v }
  | 7 => (inRange 0 600 v).map fun v => { s with alarmDelay := v }
  | _ => none

/-- The value of the `k`-th of a zone's three CHANNELS items, counted from 0. -/
def ZoneVenting.item (s : ZoneVenting) : Nat → Option Nat
  | 0 => some s.vStart
  | 1 => some s.runOn
  | 2 => some s.faultDemand
  | _ => none

/-- A zone's three CHANNELS items with the `k`-th set to `v`, if in range. -/
def ZoneVenting.write (s : ZoneVenting) (k v : Nat) : Option ZoneVenting :=
  match k with
  | 0 => (inRange 10 50 v).map fun v => { s with vStart := v }
  | 1 => (inRange 0 3600 v).map fun v => { s with runOn := v }
  | 2 => (inRange 0 100 v).map fun v => { s with faultDemand := v }
  | _ => none

/-- The value of item `i` of a CHANNELS block: eight for each channel, then three for each zone. -/
def ChannelsBlock.item (b : ChannelsBlock) (i : Nat) : Option Nat :=
  if i = 0 then none
  else if i ≤ 128 then
    (Channel.ofNumber? ((i - 1) / 8 + 1)).bind fun c => (b.channel.get c).item ((i - 1) % 8)
  else (Zone.ofNumber? ((i - 129) / 3 + 1)).bind fun z => (b.zone.get z).item ((i - 129) % 3)

/-- The block with item `i` set to `v`, if both are in range. -/
def ChannelsBlock.write (b : ChannelsBlock) (i v : Nat) : Option ChannelsBlock :=
  if i = 0 then none
  else if i ≤ 128 then
    (Channel.ofNumber? ((i - 1) / 8 + 1)).bind fun c =>
      ((b.channel.get c).write ((i - 1) % 8) v).map fun x => { b with channel := b.channel.set c x }
  else
    (Zone.ofNumber? ((i - 129) / 3 + 1)).bind fun z =>
      ((b.zone.get z).write ((i - 129) % 3) v).map fun x => { b with zone := b.zone.set z x }

/-- The value of item `i` of a TIMERS block. -/
def TimersBlock.item (b : TimersBlock) : Nat → Option Nat
  | 1 => some b.travel
  | 2 => some b.tRun
  | 3 => some b.tProve
  | 4 => some b.spacing
  | 5 => some b.coast
  | 6 => some b.rampStep
  | 7 => some b.settle
  | 8 => some b.fLink
  | 9 => some b.bLink
  | 10 => some b.inhibit
  | _ => none

/-- The block with item `i` set to `v`, if both are in range (sections 2.1, 4.1, 6.1, 8.1, 9.1, 11.1). -/
def TimersBlock.write (b : TimersBlock) (i v : Nat) : Option TimersBlock :=
  match i with
  | 1 => (inRange 10 180 v).map fun v => { b with travel := v }
  | 2 => (inRange 2 30 v).map fun v => { b with tRun := v }
  | 3 => (inRange 5 120 v).map fun v => { b with tProve := v }
  | 4 => (inRange 2 60 v).map fun v => { b with spacing := v }
  | 5 => (inRange 10 300 v).map fun v => { b with coast := v }
  | 6 => (inRange 1 20 v).map fun v => { b with rampStep := v }
  | 7 => (inRange 5 60 v).map fun v => { b with settle := v }
  | 8 => (inRange 3 30 v).map fun v => { b with fLink := v }
  | 9 => (inRange 10 600 v).map fun v => { b with bLink := v }
  | 10 => (inRange 60 3600 v).map fun v => { b with inhibit := v }
  | _ => none

/-- The value of item `i` of a BUDGET block. -/
def BudgetBlock.item (b : BudgetBlock) : Nat → Option Nat
  | 1 => some b.mains
  | 2 => some b.generator
  | _ => none

/-- The block with item `i` set to `v`, if both are in range (section 7.1). -/
def BudgetBlock.write (b : BudgetBlock) (i v : Nat) : Option BudgetBlock :=
  match i with
  | 1 => (inRange 0 9999 v).map fun v => { b with mains := v }
  | 2 => (inRange 0 9999 v).map fun v => { b with generator := v }
  | _ => none

/-- The value of the `k`-th of a window's five items, counted from 0. -/
def Window.item (w : Window) : Nat → Option Nat
  | 0 => some w.days.toNat
  | 1 => some w.start
  | 2 => some w.stop
  | 3 => some w.zones.toNat
  | 4 => some w.demand
  | _ => none

/-- A window with its `k`-th item set to `v`, if in range (sections 10.2 and 13.5). -/
def Window.write (w : Window) (k v : Nat) : Option Window :=
  match k with
  | 0 => (inRange 0 127 v).map fun v => { w with days := .ofNat 7 v }
  | 1 => (inRange 0 1439 v).map fun v => { w with start := v }
  | 2 => (inRange 0 1439 v).map fun v => { w with stop := v }
  | 3 => (inRange 0 255 v).map fun v => { w with zones := .ofNat 8 v }
  | 4 => (inRange 10 100 v).map fun v => { w with demand := v }
  | _ => none

/-- The value of item `i` of a block, if the block has that item. -/
def BlockValue.item : BlockValue → Nat → Option Nat
  | .zones b, i => b.item i
  | .fans b, i => b.item i
  | .channels b, i => b.item i
  | .timers b, i => b.item i
  | .budget b, i => b.item i
  | .windows b, i =>
    if i = 0 then none
    else (WindowNo.ofNumber? ((i - 1) / 5 + 1)).bind fun w => (b.get w).item ((i - 1) % 5)

/-- The block with item `i` set to `v`: none when the item number or the value is out of range (R188). -/
def BlockValue.write : BlockValue → Nat → Nat → Option BlockValue
  | .zones b, i, v => (b.write i v).map .zones
  | .fans b, i, v => (b.write i v).map .fans
  | .channels b, i, v => (b.write i v).map .channels
  | .timers b, i, v => (b.write i v).map .timers
  | .budget b, i, v => (b.write i v).map .budget
  | .windows b, i, v =>
    if i = 0 then none
    else
      (WindowNo.ofNumber? ((i - 1) / 5 + 1)).bind fun w =>
        ((b.get w).write ((i - 1) % 5) v).map fun x => .windows (b.set w x)

/-! ## The cross-field rules of a commit (R189) -/

/-- S < A1 < A2 and H < S. -/
def ChannelSetting.consistent (s : ChannelSetting) : Bool :=
  s.start < s.alarm1 && s.alarm1 < s.alarm2 && s.hysteresis < s.start

/-- No adjacency set names its own zone. -/
def ZonesBlock.consistent (b : ZonesBlock) : Bool :=
  Zone.all.all fun z => !maskHas (b.adjacency.get z) z

/-- No group is assigned more than six fans. -/
def FansBlock.consistent (b : FansBlock) : Bool :=
  Group.all.all fun g => decide ((Fan.all.filter fun f => b.group.get f == some g).length ≤ 6)

/-- The cross-field check of COMMIT-EDIT (R189, step 1). -/
def BlockValue.consistent : BlockValue → Bool
  | .zones b => b.consistent
  | .fans b => b.consistent
  | .channels b => Channel.all.all fun c => (b.channel.get c).consistent
  | .timers _ => true
  | .budget _ => true
  | .windows _ => true

/-! ## Membership read from the settings -/

/-- The zones of a group, in ascending number. -/
def Settings.groupZones (s : Settings) (g : Group) : List Zone :=
  Zone.all.filter fun z => s.zones.group.get z == g

/-- The fans assigned to a group, in ascending number. -/
def Settings.groupFans (s : Settings) (g : Group) : List Fan :=
  Fan.all.filter fun f => s.fans.group.get f == some g

/-- The minimum speed of a fan's group; a fan in no group is never granted a speed (section 7.1). -/
def Settings.fanMin (s : Settings) (f : Fan) : Nat :=
  match s.fans.group.get f with
  | some g => s.fans.vMin.get g
  | none => 0

/-- The channels assigned to a zone, in ascending number. -/
def Settings.zoneChannels (s : Settings) (z : Zone) : List Channel :=
  Channel.all.filter fun c => (s.channels.channel.get c).zone == some z

end Sys2Proof.Machine
end

