-- ==== Sys2Proof/Machine/State.lean ====
section
/-! DEFINITION. Everything the HX-816 holds, as plain data: one record for each of the twelve blocks of 00_scope.md,
the pending commands, and the state right after power is applied (LOADING). The five blocks that hand work to one
another inside one handling (CLA, DMC, GAL, FSQ, SPM), with the pending-event set they write, stand together as
`Plant`; the other blocks have a field each in `State`. -/

namespace Sys2Proof.Machine

/-! ## CLA: zone records and the fire order list -/

/-- The sources of claims (R2). -/
inductive Source where
  | panel
  | fireLink
  | fireContact
  | adjacency
  | gas
  | bms
  | schedule
  deriving DecidableEq, Repr

/-- EXHAUST, which always has a demand of 1..100, or SHUT, which has none (R2). -/
inductive ClaimKind where
  | exhaust (demand : Nat)
  | shut
  deriving DecidableEq, Repr

/-- A claim (R2). Its arrival position is its place in the claim list: within a level the latest comes first (R5). -/
structure Claim where
  source : Source
  level : Nat
  kind : ClaimKind
  origins : List Zone
  deriving DecidableEq, Repr

/-- A zone's resolved instruction (section 1.1). -/
inductive Directive where
  | idle
  | opened
  | shut
  deriving DecidableEq, Repr

/-- The kind of a winning claim (section 1.1). -/
inductive WinningKind where
  | exhaust
  | shut
  deriving DecidableEq, Repr

/-- The zone result (section 1.1): directive, demand, winning source, level and kind. -/
structure ZoneResult where
  directive : Directive
  demand : Nat
  source : Option Source
  level : Option Nat
  kind : Option WinningKind
  deriving DecidableEq, Repr

/-- Smoke-control status (section 1.8). -/
inductive SmokeStatus where
  | none
  | pending
  | confirmedExhaust
  | confirmedShut
  | failed
  deriving DecidableEq, Repr

/-- A zone record (section 1.1). -/
structure ZoneRec where
  claims : List Claim
  result : ZoneResult
  status : SmokeStatus
  deriving DecidableEq, Repr

/-- An entry of the fire order list (R12). Its status is its position: ACTIVE within the origin limit. -/
structure FireEntry where
  zone : Zone
  alarmPresent : Bool
  deriving DecidableEq, Repr

/-! ## DMC: damper records -/

/-- The state of a damper (R102). -/
inductive DamperState where
  | closed
  | opening
  | opened
  | closing
  | fault
  deriving DecidableEq, Repr

/-- Why a damper entered FAULT (R102). -/
inductive FaultCause where
  | none
  | travel
  | disagree
  deriving DecidableEq, Repr

/-- A damper record (R102). `commandOpen` is the command, OPEN when true, and the command output equals it. -/
structure Damper where
  state : DamperState
  commandOpen : Bool
  timer : Option Nat
  cause : FaultCause
  openSwitch : Bool
  closedSwitch : Bool
  deriving DecidableEq, Repr

/-! ## GAL: group records and grants -/

/-- The priority class of a group (R120). -/
inductive GroupClass where
  | normal
  | high
  | fire
  deriving DecidableEq, Repr

/-- Whether the budget stage reduced a group's fans (R116). -/
inductive Curtailment where
  | none
  | capped
  | shed
  deriving DecidableEq, Repr

/-- A chosen fan with the speed granted to it, 0 for a fan shed (R132). -/
structure Chosen where
  fan : Fan
  granted : Nat
  deriving DecidableEq, Repr

/-- A group record (R116, R132). -/
structure GroupRec where
  counted : List Zone
  demand : Nat
  cls : GroupClass
  installed : Nat
  available : Nat
  count : Nat
  speed : Nat
  chosen : List Chosen
  curtailment : Curtailment
  unserved : Bool
  duty : List Fan
  deriving DecidableEq, Repr

/-- A fan's grant (R129). -/
structure Grant where
  target : Nat
  fire : Bool
  deriving DecidableEq, Repr

/-- GAL's state (R116): `fireShort` is whether the most recent pass found F above B (R125, R130). -/
structure Gal where
  groups : PerGroup GroupRec
  budget : Nat
  grants : PerFan Grant
  fireShort : Bool
  deriving DecidableEq, Repr

/-! ## FSQ: fan records and the start queue -/

/-- The state of a fan (R134). -/
inductive FanState where
  | off
  | queued
  | starting
  | proving
  | running
  | stopping
  | tripped
  | locked
  deriving DecidableEq, Repr

/-- Why a fan tripped (R134). -/
inductive TripCause where
  | none
  | runTimeout
  | airflowTimeout
  | airflowLoss
  | driveFault
  deriving DecidableEq, Repr

/-- A fan record (R134). `run`, `output` and `fireOverride` are the three outputs to the drive; `running`, `airflow`
and `driveFault` are the filtered inputs from it. -/
structure FanRec where
  state : FanState
  cause : TripCause
  target : Nat
  fire : Bool
  output : Nat
  run : Bool
  fireOverride : Bool
  attempts : Nat
  timer : Option Nat
  running : Bool
  airflow : Bool
  driveFault : Bool
  deriving DecidableEq, Repr

/-- A start-queue entry (R137): a fan, its class (FIRE when `fire` is true) and its arrival. -/
structure QueueEntry where
  fan : Fan
  fire : Bool
  arrival : Nat
  deriving DecidableEq, Repr

/-- The staged entry and its reservation (R140). -/
structure Staged where
  fan : Fan
  reservation : Nat
  deriving DecidableEq, Repr

/-- FSQ's state (R134, R137, R143, R158). `budget` is the B that GAL last handed over; `nextArrival` orders joiners. -/
structure Fsq where
  fans : PerFan FanRec
  queue : List QueueEntry
  nextArrival : Nat
  staged : Option Staged
  spacing : Option Nat
  budget : Nat
  hold : Bool
  deriving DecidableEq, Repr

/-! ## SPM: the supply record -/

/-- The supply state (R162). -/
inductive SupplyState where
  | mains
  | generator
  | transfer
  deriving DecidableEq, Repr

/-- The supply record (R162). -/
structure Spm where
  mainsHealthy : Bool
  generatorOnline : Bool
  state : SupplyState
  settle : Option Nat
  deriving DecidableEq, Repr

/-- The kinds of event in the pending-event set (R183). -/
inductive EventKind where
  | zoneChange
  | gasAlarm
  | channelFault
  | fireChange
  | damperFault
  | fanTrip
  | budgetShort
  | supplyChange
  | linkTrouble
  | linkError
  | settingsDone
  | settingsDefaulted
  | powerUp
  deriving DecidableEq, Repr

/-- The pending-event set: one flag for each kind (R183). -/
structure Events where
  zoneChange : Bool
  gasAlarm : Bool
  channelFault : Bool
  fireChange : Bool
  damperFault : Bool
  fanTrip : Bool
  budgetShort : Bool
  supplyChange : Bool
  linkTrouble : Bool
  linkError : Bool
  settingsDone : Bool
  settingsDefaulted : Bool
  powerUp : Bool
  deriving DecidableEq, Repr

/-- The blocks that act on one another within one handling, and the pending-event set. -/
structure Plant where
  zones : PerZone ZoneRec
  fireOrder : List FireEntry
  dampers : PerZone Damper
  gal : Gal
  fsq : Fsq
  spm : Spm
  events : Events
  deriving DecidableEq, Repr

/-! ## SCN and FEV -/

/-- The condition of a channel (R31). -/
inductive Condition where
  | unused
  | active
  | inhibited
  | fault
  deriving DecidableEq, Repr

/-- The last four concentrations entered, in order of entry (R38). -/
structure Ring where
  first : Nat
  second : Nat
  third : Nat
  newest : Nat
  deriving DecidableEq, Repr

/-- A channel record (R31). No ring is the empty ring. -/
structure ChannelRec where
  condition : Condition
  raw : Nat
  ring : Option Ring
  average : Nat
  outRun : Nat
  inRun : Nat
  faultHeld : Bool
  fresh : Bool
  deriving DecidableEq, Repr

/-- An entry of the inhibit list (R43). -/
structure Inhibit where
  channel : Channel
  remaining : Nat
  deriving DecidableEq, Repr

/-- SCN's state. `scanned` is the place of the scan: the number of the channel last converted in the scan of this scan
period, 0 before its first conversion (R32). -/
structure Scn where
  channels : PerChannel ChannelRec
  inhibits : List Inhibit
  scanned : Nat
  deriving DecidableEq, Repr

/-- A channel's alarm state (R53). -/
inductive AlarmState where
  | normal
  | a1Pending
  | a1
  | a2
  deriving DecidableEq, Repr

/-- A channel evaluation record (R53). -/
structure ChannelEval where
  alarm : AlarmState
  delay : Option Nat
  venting : Bool
  demand : Nat
  deriving DecidableEq, Repr

/-- A GAS claim as FEV holds it (R53). -/
structure GasClaim where
  level : Nat
  demand : Nat
  deriving DecidableEq, Repr

/-- A zone evaluation record (R53). -/
structure ZoneEval where
  gas : Option GasClaim
  runOn : Option Nat
  deriving DecidableEq, Repr

/-- FEV's state. -/
structure Fev where
  channels : PerChannel ChannelEval
  zones : PerZone ZoneEval
  deriving DecidableEq, Repr

/-! ## The links, the panel, the clock and the store -/

/-- The state of a serial link (R71, R178). -/
inductive LinkState where
  | down
  | up
  | lost
  deriving DecidableEq, Repr

/-- A zone-state frame (section 13.2): tag, reset flag and alarm map. -/
structure ZoneStateFrame where
  tag : Bool
  reset : Bool
  map : BitVec 8
  deriving DecidableEq, Repr

/-- FIF's state but for the trouble summary and contact, which stand in `Pins` (R71, R79). `assembling` is whether
the receiver has a frame in progress (R192). -/
structure Fif where
  link : LinkState
  lastTag : Option Bool
  lastMap : BitVec 8
  timer : Option Nat
  slot : Option ZoneStateFrame
  contact : Bool
  assembling : Bool
  deriving DecidableEq, Repr

/-- The panel record (R91). -/
structure Pif where
  position : PerZone SwitchPosition
  switchFault : PerZone Bool
  panelKey : Bool
  commissioningKey : Bool
  lampTest : Bool
  held : PerZone (Option ClaimKind)
  deriving DecidableEq, Repr

/-- The clock record (R169) and the SCHEDULE claims held, as their demands (R173). -/
structure Dck where
  day : Nat
  minute : Nat
  second : Nat
  isSet : Bool
  held : PerZone (Option Nat)
  deriving DecidableEq, Repr

/-- A frame of either link, less its lead byte and check (R192). -/
structure Frame where
  address : Byte
  kind : Byte
  payload : List Byte
  deriving DecidableEq, Repr

/-- The B-link's record (R175); the pending-event set stands in `Plant`, the attention line in `Pins`. `straps` is
the strap lines' level as last read and `address` the level in use. -/
structure Bli where
  straps : Nat
  address : Nat
  link : LinkState
  timer : Option Nat
  queue : List Frame
  latch : Bool
  held : PerZone (Option ClaimKind)
  cap : Option Nat
  assembling : Bool
  deriving DecidableEq, Repr

/-- The edit session record (R188); in COMMITTING, `written` is whether the write has completed (R190). -/
inductive Session where
  | none
  | opened (buffer : BlockValue) (latch : Bool)
  | committing (buffer : BlockValue) (written : Bool)
  deriving DecidableEq, Repr

/-- SST's state (R186): stored contents, validity markers (true is valid), values in force, defaulted blocks and the
edit session. -/
structure Sst where
  stored : Settings
  valid : PerBlock
  inForce : Settings
  defaulted : PerBlock
  session : Session
  deriving DecidableEq, Repr

/-- The trouble summary: the set of trouble conditions that hold (R85). -/
structure Trouble where
  fLink : Bool
  channel : Bool
  damper : Bool
  fan : Bool
  groupUnserved : Bool
  fireBudget : Bool
  settings : Bool
  panelSwitch : Bool
  deriving DecidableEq, Repr

/-- What follows from the rest of the state at the end of a handling: the trouble summary (R85), the trouble contact,
open when true (R86), the lamps (R97 to R99) and the attention line, asserted when true (R183). -/
structure Pins where
  trouble : Trouble
  contactOpen : Bool
  zoneLamps : PerZone Config.ZoneLamps
  groupLamps : PerGroup Config.GroupLamps
  attention : Bool
  deriving DecidableEq, Repr

/-- The model's own record of the lines: the reply frames the part has put on each link, as bytes, newest first (log
entry 3), and `restarts`, how many RESTART frames it has handled, to which the free level of the strap lines is applied
(log entry 2). -/
structure Wire where
  bLink : List (List Byte)
  fLink : List (List Byte)
  restarts : Nat
  deriving DecidableEq, Repr

/-- What the part is doing: without power, in LOADING, or in normal operation (R187). -/
inductive Mode where
  | unpowered
  | loading
  | normal
  deriving DecidableEq, Repr

/-- The state of the part and the commands that wait for it, first in, first out. -/
structure State where
  mode : Mode
  plant : Plant
  scn : Scn
  fev : Fev
  fif : Fif
  pif : Pif
  dck : Dck
  bli : Bli
  sst : Sst
  pins : Pins
  wire : Wire
  pending : List Instr
  deriving DecidableEq, Repr

/-- Why the part stops with a fault: it never does. The spec gives every command of its table an effect in every
state, and names no event that stops the part (INVENTORY.md, Faults), so this type has no constructor; safe. -/
inductive Fault where
  deriving DecidableEq, Repr

/-- Why a command is refused. -/
inductive Refusal where
  /-- Raised by `exec` alone, for a row of the table that has no meaning yet: none now. Safe. -/
  | notModelled (mnemonic : String)
  deriving DecidableEq, Repr

/-! ## Values at reset -/

/-- The result of an empty claim list (R10, R29). -/
def ZoneResult.blank : ZoneResult :=
  { directive := .idle, demand := 0, source := none, level := none, kind := none }

/-- A zone with no claim (R29). -/
def ZoneRec.blank : ZoneRec := { claims := [], result := .blank, status := .none }

/-- A damper commanded closed, as LOADING holds it (R115). -/
def Damper.blank : Damper :=
  { state := .closed, commandOpen := false, timer := none, cause := .none, openSwitch := false,
    closedSwitch := false }

/-- A group record as normal operation begins (R133). -/
def GroupRec.blank : GroupRec :=
  { counted := [], demand := 0, cls := .normal, installed := 0, available := 0, count := 0, speed := 0, chosen := [],
    curtailment := .none, unserved := false, duty := [] }

/-- GAL as normal operation begins: no grant, no budget (R133). -/
def Gal.blank : Gal :=
  { groups := .build fun _ => .blank, budget := 0, grants := .build fun _ => { target := 0, fire := false },
    fireShort := false }

/-- A fan at rest with nothing counted (R161). -/
def FanRec.blank : FanRec :=
  { state := .off, cause := .none, target := 0, fire := false, output := 0, run := false, fireOverride := false,
    attempts := 0, timer := none, running := false, airflow := false, driveFault := false }

/-- FSQ with an empty queue, in supply hold (R161). -/
def Fsq.blank : Fsq :=
  { fans := .build fun _ => .blank, queue := [], nextArrival := 0, staged := none, spacing := none, budget := 0,
    hold := true }

/-- The supply record before the lines are read (R168): no input is made. -/
def Spm.blank : Spm := { mainsHealthy := false, generatorOnline := false, state := .transfer, settle := none }

/-- No event pending. -/
def Events.empty : Events :=
  { zoneChange := false, gasAlarm := false, channelFault := false, fireChange := false, damperFault := false,
    fanTrip := false, budgetShort := false, supplyChange := false, linkTrouble := false, linkError := false,
    settingsDone := false, settingsDefaulted := false, powerUp := false }

/-- The plant blocks during LOADING. -/
def Plant.blank : Plant :=
  { zones := .build fun _ => .blank, fireOrder := [], dampers := .build fun _ => .blank, gal := .blank,
    fsq := .blank, spm := .blank, events := .empty }

/-- A channel record before its condition is set from its zone setting (R52). -/
def ChannelRec.blank : ChannelRec :=
  { condition := .unused, raw := 0, ring := none, average := 0, outRun := 0, inRun := 0, faultHeld := false,
    fresh := false }

/-- SCN during LOADING: no scan is made and the inhibit list is empty (R52). -/
def Scn.blank : Scn := { channels := .build fun _ => .blank, inhibits := [], scanned := 0 }

/-- A channel evaluation record at reset (R69). -/
def ChannelEval.blank : ChannelEval := { alarm := .normal, delay := none, venting := false, demand := 0 }

/-- A zone evaluation record at reset (R69). -/
def ZoneEval.blank : ZoneEval := { gas := none, runOn := none }

/-- FEV at reset (R69). -/
def Fev.blank : Fev := { channels := .build fun _ => .blank, zones := .build fun _ => .blank }

/-- FIF at reset (R88). -/
def Fif.blank : Fif :=
  { link := .down, lastTag := none, lastMap := 0#8, timer := none, slot := none, contact := false,
    assembling := false }

/-- PIF before its inputs are read (R101). -/
def Pif.blank : Pif :=
  { position := .build fun _ => .auto, switchFault := .build fun _ => false, panelKey := false,
    commissioningKey := false, lampTest := false, held := .build fun _ => none }

/-- The unset clock (R169). -/
def Dck.blank : Dck := { day := 1, minute := 0, second := 0, isSet := false, held := .build fun _ => none }

/-- BLI during LOADING, with the strap lines' level in use as its address (R175, R185). -/
def Bli.blank (straps : Nat) : Bli :=
  { straps := straps, address := straps, link := .down, timer := none, queue := [], latch := false,
    held := .build fun _ => none, cap := none, assembling := false }

/-- The settings store as the model takes it at reset: factory defaults stored with valid markers, and loaded
(R187; DESIGN CHOICE, log entry 1). -/
def Sst.fresh : Sst :=
  { stored := factory, valid := ⟨true, true, true, true, true, true⟩, inForce := factory,
    defaulted := ⟨false, false, false, false, false, false⟩, session := .none }

/-- The trouble summary with F-LINK alone (R88). -/
def Trouble.fLinkOnly : Trouble :=
  { fLink := true, channel := false, damper := false, fan := false, groupUnserved := false, fireBudget := false,
    settings := false, panelSwitch := false }

/-- The outputs during LOADING: contact open (R86), lamps dark (R101), attention line released (R185). -/
def Pins.loading (trouble : Trouble) : Pins :=
  { trouble := trouble, contactOpen := true, zoneLamps := .build fun _ => ⟨false, false, false⟩,
    groupLamps := .build fun _ => ⟨false, false⟩, attention := false }

/-- The machine right after power-on reset: power is applied, the settings blocks are read and every block is in
LOADING (R187); the strap lines read 1 (DESIGN CHOICE, log entry 2). -/
def State.reset : State :=
  { mode := .loading, plant := .blank, scn := .blank, fev := .blank, fif := .blank, pif := .blank, dck := .blank,
    bli := .blank 1, sst := .fresh, pins := .loading .fLinkOnly, wire := { bLink := [], fLink := [], restarts := 0 }, pending := [] }

end Sys2Proof.Machine
end

