-- ==== Sys2Proof/Machine/Flags.lean ====
section
/-! DEFINITION. The flags the part keeps for its masters: the pending-event set and its two-byte code (R183), and the
trouble summary's code (section 13.2). -/

namespace Sys2Proof.Machine

/-- The kinds in the order of their bits (section 13.3). -/
def EventKind.all : List EventKind :=
  [.zoneChange, .gasAlarm, .channelFault, .fireChange, .damperFault, .fanTrip, .budgetShort, .supplyChange,
    .linkTrouble, .linkError, .settingsDone, .settingsDefaulted, .powerUp]

/-- Whether the set holds the flag of a kind. -/
def Events.has (e : Events) : EventKind → Bool
  | .zoneChange => e.zoneChange
  | .gasAlarm => e.gasAlarm
  | .channelFault => e.channelFault
  | .fireChange => e.fireChange
  | .damperFault => e.damperFault
  | .fanTrip => e.fanTrip
  | .budgetShort => e.budgetShort
  | .supplyChange => e.supplyChange
  | .linkTrouble => e.linkTrouble
  | .linkError => e.linkError
  | .settingsDone => e.settingsDone
  | .settingsDefaulted => e.settingsDefaulted
  | .powerUp => e.powerUp

/-- The set with the flag of a kind set; setting a flag that is set changes nothing (R183). -/
def Events.add (e : Events) : EventKind → Events
  | .zoneChange => { e with zoneChange := true }
  | .gasAlarm => { e with gasAlarm := true }
  | .channelFault => { e with channelFault := true }
  | .fireChange => { e with fireChange := true }
  | .damperFault => { e with damperFault := true }
  | .fanTrip => { e with fanTrip := true }
  | .budgetShort => { e with budgetShort := true }
  | .supplyChange => { e with supplyChange := true }
  | .linkTrouble => { e with linkTrouble := true }
  | .linkError => { e with linkError := true }
  | .settingsDone => { e with settingsDone := true }
  | .settingsDefaulted => { e with settingsDefaulted := true }
  | .powerUp => { e with powerUp := true }

/-- Whether the set holds any flag: what the attention line shows (R183). -/
def Events.any (e : Events) : Bool := EventKind.all.any e.has

/-- A list of flags as a number, the first as bit 0. -/
def bitsOf : List Bool → Nat
  | [] => 0
  | b :: bs => (if b then 1 else 0) + 2 * bitsOf bs

/-- The two-byte code of the set: bit 0 ZONE-CHANGE … bit 12 POWER-UP (section 13.3). -/
def Events.code (e : Events) : Nat := bitsOf (EventKind.all.map e.has)

/-- The plant with an event raised. -/
def Plant.raise (p : Plant) (k : EventKind) : Plant := { p with events := p.events.add k }

/-- The plant with an event raised when `b` holds. -/
def Plant.raiseIf (p : Plant) (b : Bool) (k : EventKind) : Plant := if b then p.raise k else p

/-- The part with an event raised. -/
def State.raise (s : State) (k : EventKind) : State := { s with plant := s.plant.raise k }

/-- Whether the summary holds any condition: what the trouble contact shows (R86). -/
def Trouble.any (t : Trouble) : Bool :=
  t.fLink || t.channel || t.damper || t.fan || t.groupUnserved || t.fireBudget || t.settings || t.panelSwitch

/-- The summary's byte: bit 0 F-LINK … bit 7 PANEL-SWITCH (section 13.2). -/
def Trouble.code (t : Trouble) : Nat :=
  bitsOf [t.fLink, t.channel, t.damper, t.fan, t.groupUnserved, t.fireBudget, t.settings, t.panelSwitch]

end Sys2Proof.Machine
end

