-- ==== Sys2Proof/Machine/Operands.lean ====
section
/-! DEFINITION. The forms in which values reach and leave the part: rounding, timers, bytes, the frame envelope and its
check (R192), and the ranking of lists. -/

namespace Sys2Proof.Machine

/-! ## Arithmetic and timers (00_scope.md) -/

/-- The quotient rounded up: the smallest integer not less than a / b, for b above 0. -/
def ceilDiv (a b : Nat) : Nat := (a + (b - 1)) / b

/-- A list's sum. -/
def total : List Nat → Nat
  | [] => 0
  | n :: ns => n + total ns

/-- A timer after one second tick: it counts down by one and stays at 0 until its expiry is handled (log entry 5). -/
def tickTimer : Option Nat → Option Nat
  | none => none
  | some n => some (n - 1)

/-- A running timer under a new duration: it continues from its start, so what has run is `old - left`. None when the
new duration has run already (R77, R114, R159, R167, R178). -/
def rebase (old new left : Nat) : Option Nat := if new + left ≤ old then none else some (new + left - old)

/-- What a timer reads: a stopped timer reads 0 (section 13.4). -/
def timerCode (t : Option Nat) : Nat := t.getD 0

/-! ## Bytes (chapter 13) -/

/-- A number as one byte. -/
def byte (n : Nat) : Byte := .ofNat 8 n

/-- A number as two bytes, high byte first. -/
def word2 (n : Nat) : List Byte := [byte (n / 256), byte n]

/-- A flag as one byte, 1 or 0. -/
def flagByte (b : Bool) : Byte := if b then 1#8 else 0#8

/-- The two-byte value whose high byte comes first. -/
def wordOf (hi lo : Byte) : Word := hi ++ lo

/-- The high byte of a two-byte value. -/
def hiByte (w : Word) : Byte := w.extractLsb' 8 8

/-- The low byte of a two-byte value. -/
def loByte (w : Word) : Byte := w.extractLsb' 0 8

/-! ## The envelope (R192) -/

/-- The lead byte. -/
def leadOctet : Byte := 165#8

/-- The check of the bytes from the address to the end of the payload: 65 535 minus their sum modulo 65 536. -/
def checkOf (bytes : List Byte) : Nat := 65535 - total (bytes.map BitVec.toNat) % 65536

/-- The bytes the check sums. -/
def Frame.summed (f : Frame) : List Byte := f.address :: f.kind :: byte f.payload.length :: f.payload

/-- A frame as it stands on the line. -/
def Frame.bytes (f : Frame) : List Byte := leadOctet :: f.summed ++ word2 (checkOf f.summed)

/-- The frame in the bytes after a lead byte: none on a length byte above 250, on bytes too few or too many for the
length byte, and on a check failure. -/
def parseFrame : List Byte → Option Frame
  | address :: kind :: length :: rest =>
    if Config.maxPayload < length.toNat then none
    else
      let frame : Frame := { address := address, kind := kind, payload := rest.take length.toNat }
      if rest.length = length.toNat + 2 ∧ rest.drop length.toNat = word2 (checkOf frame.summed) then some frame
      else none
  | _ => none

/-- The zone-state frame in a frame of the F-link: kind 1, length 2; unused bits and the address are ignored (R71, R192,
R193, section 13.2). -/
def ZoneStateFrame.ofFrame? (f : Frame) : Option ZoneStateFrame :=
  if f.kind = 1#8 then
    match f.payload with
    | [flags, map] => some { tag := flags.getLsbD 0, reset := flags.getLsbD 1, map := map }
    | _ => none
  else none

end Sys2Proof.Machine
end

