-- ==== Sys2Proof/Decode.lean ====
section
/-! DEFINITION. The request a B-link frame carries (section 13.3), its encoding beside it, and the host's question about
the rows of the opcode table: the table gives none of its rows any bits, so no word spells a command. -/

namespace Sys2Proof

open Machine

/-- The requests of section 11.4, with the fields of their payloads. -/
inductive Request where
  | readSummary
  | readZone (z : Byte)
  | readGroup (g : Byte)
  | readFan (f : Byte)
  | readChannel (c : Byte)
  | fetchEvents
  | claimExhaust (z d : Byte)
  | claimShut (z : Byte)
  | release (z : Byte)
  | setBudget (cap : Word)
  | clearBudget
  | setClock (day : Byte) (minute : Word) (second : Byte)
  | adjustClock
  | inhibit (c : Byte) (t : Word)
  | restore (c : Byte)
  | lockFan (f : Byte)
  | unlockFan (f : Byte)
  | resetFan (f : Byte)
  | openEdit (b : Byte)
  | writeItem (item value : Word)
  | commitEdit
  | abandonEdit
  | readSetting (b : Byte) (item : Word)
  | restart
  | clearLink
  deriving DecidableEq, Repr

/-- The kind byte of each request (section 13.3). -/
def Request.kind : Request → Byte
  | .readSummary => 1#8
  | .readZone _ => 2#8
  | .readGroup _ => 3#8
  | .readFan _ => 4#8
  | .readChannel _ => 5#8
  | .fetchEvents => 6#8
  | .claimExhaust _ _ => 16#8
  | .claimShut _ => 17#8
  | .release _ => 18#8
  | .setBudget _ => 19#8
  | .clearBudget => 20#8
  | .setClock _ _ _ => 21#8
  | .adjustClock => 22#8
  | .inhibit _ _ => 23#8
  | .restore _ => 24#8
  | .lockFan _ => 25#8
  | .unlockFan _ => 26#8
  | .resetFan _ => 27#8
  | .openEdit _ => 32#8
  | .writeItem _ _ => 33#8
  | .commitEdit => 34#8
  | .abandonEdit => 35#8
  | .readSetting _ _ => 36#8
  | .restart => 48#8
  | .clearLink => 49#8

/-- The payload of each request (section 13.3). -/
def Request.payload : Request → List Byte
  | .readZone z => [z]
  | .readGroup g => [g]
  | .readFan f => [f]
  | .readChannel c => [c]
  | .claimExhaust z d => [z, d]
  | .claimShut z => [z]
  | .release z => [z]
  | .setBudget cap => [hiByte cap, loByte cap]
  | .setClock day minute second => [day, hiByte minute, loByte minute, second]
  | .inhibit c t => [c, hiByte t, loByte t]
  | .restore c => [c]
  | .lockFan f => [f]
  | .unlockFan f => [f]
  | .resetFan f => [f]
  | .openEdit b => [b]
  | .writeItem item value => [hiByte item, loByte item, hiByte value, loByte value]
  | .readSetting b item => [b, hiByte item, loByte item]
  | .readSummary => []
  | .fetchEvents => []
  | .clearBudget => []
  | .adjustClock => []
  | .commitEdit => []
  | .abandonEdit => []
  | .restart => []
  | .clearLink => []

/-- The request a taken frame carries: none for a kind that is not listed and for a length that is wrong for its kind,
which R177 answers UNKNOWN. -/
def decodeRequest (kind : Byte) (payload : List Byte) : Option Request :=
  match kind.toNat, payload with
  | 1, [] => some .readSummary
  | 2, [z] => some (.readZone z)
  | 3, [g] => some (.readGroup g)
  | 4, [f] => some (.readFan f)
  | 5, [c] => some (.readChannel c)
  | 6, [] => some .fetchEvents
  | 16, [z, d] => some (.claimExhaust z d)
  | 17, [z] => some (.claimShut z)
  | 18, [z] => some (.release z)
  | 19, [a, b] => some (.setBudget (wordOf a b))
  | 20, [] => some .clearBudget
  | 21, [day, a, b, second] => some (.setClock day (wordOf a b) second)
  | 22, [] => some .adjustClock
  | 23, [c, a, b] => some (.inhibit c (wordOf a b))
  | 24, [c] => some (.restore c)
  | 25, [f] => some (.lockFan f)
  | 26, [f] => some (.unlockFan f)
  | 27, [f] => some (.resetFan f)
  | 32, [b] => some (.openEdit b)
  | 33, [a, b, c, d] => some (.writeItem (wordOf a b) (wordOf c d))
  | 34, [] => some .commitEdit
  | 35, [] => some .abandonEdit
  | 36, [b, c, d] => some (.readSetting b (wordOf c d))
  | 48, [] => some .restart
  | 49, [] => some .clearLink
  | _, _ => none

/-- The command that is the taking of a frame with a request; `straps` are the strap lines a RESTART reads. -/
def Request.command (straps : BitVec 5) : Request → Instr
  | .readSummary => .readSummary
  | .readZone z => .readZone z
  | .readGroup g => .readGroup g
  | .readFan f => .readFan f
  | .readChannel c => .readChannel c
  | .fetchEvents => .fetchEvents
  | .claimExhaust z d => .claimExhaust z d
  | .claimShut z => .claimShut z
  | .release z => .release z
  | .setBudget cap => .setBudget cap
  | .clearBudget => .clearBudget
  | .setClock day minute second => .setClock day minute second
  | .adjustClock => .adjustClock
  | .inhibit c t => .inhibit c t
  | .restore c => .restore c
  | .lockFan f => .lockFan f
  | .unlockFan f => .unlockFan f
  | .resetFan f => .resetFan f
  | .openEdit b => .openEdit b
  | .writeItem item value => .writeItem item value
  | .commitEdit => .commitEdit
  | .abandonEdit => .abandonEdit
  | .readSetting b item => .readSetting b item
  | .restart => .restart straps
  | .clearLink => .clearLink

/-- The command that a word spells by the opcode table's bits. The table gives no row any bits (its rows carry neither
"fixed" nor "fields"; 98_reader.md counts 65 rows of 65 unread), so no word spells a command. -/
def decodeTableWord (nbits w : Nat) : Option Instr :=
  match nbits, w with
  | _, _ => none

end Sys2Proof
end

