-- ==== Sys2Proof/Machine/Claims.lean ====
section
/-! DEFINITION. The claim arbiter's computations (chapter 1): claim lists, the zone result, the fire order list, origins
lists and the smoke-control status. Nothing here changes the state. -/

namespace Sys2Proof.Machine

/-! ## Claims and claim lists -/

/-- The level of a claim; a GAS claim's level is stated by the request (R3). -/
def Source.level (gasLevel : Nat) : Source → Nat
  | .panel => 7
  | .fireLink => 6
  | .fireContact => 6
  | .adjacency => 5
  | .gas => gasLevel
  | .bms => 2
  | .schedule => 1

/-- The PANEL claim of a zone switch away from AUTO (R3). -/
def panelClaim (k : ClaimKind) : Claim := { source := .panel, level := 7, kind := k, origins := [] }

/-- The FIRE-LINK claim of an ACTIVE origin (R3, R16). -/
def fireLinkClaim : Claim := { source := .fireLink, level := 6, kind := .exhaust 100, origins := [] }

/-- The FIRE-CONTACT claim of the contact fallback (R3, R25). -/
def fireContactClaim : Claim := { source := .fireContact, level := 6, kind := .exhaust 100, origins := [] }

/-- The ADJACENCY claim of a zone with these origins (R3, R21). -/
def adjacencyClaim (origins : List Zone) : Claim :=
  { source := .adjacency, level := 5, kind := .shut, origins := origins }

/-- The GAS claim at the level and demand FEV asks for (R3, R4). -/
def gasClaim (g : GasClaim) : Claim := { source := .gas, level := g.level, kind := .exhaust g.demand, origins := [] }

/-- The BMS claim of a CLAIM request (R3). -/
def bmsClaim (k : ClaimKind) : Claim := { source := .bms, level := 2, kind := k, origins := [] }

/-- The SCHEDULE claim of an open window (R3). -/
def scheduleClaim (demand : Nat) : Claim :=
  { source := .schedule, level := 1, kind := .exhaust demand, origins := [] }

/-- A list with a claim entered at the place its level gives it, ahead of every claim of the same level (R6). -/
def enterClaim (c : Claim) : List Claim → List Claim
  | [] => [c]
  | d :: ds => if d.level ≤ c.level then c :: d :: ds else d :: enterClaim c ds

/-- A list without the claim of a source; the claims behind it keep their order (R7). -/
def withoutSource (src : Source) (l : List Claim) : List Claim := l.filter fun c => c.source != src

/-- A list after a placement: the source's held claim leaves and the new one enters (R6). -/
def placeIn (c : Claim) (l : List Claim) : List Claim := enterClaim c (withoutSource c.source l)

/-- The claim of a source in a list. -/
def claimOf (src : Source) (l : List Claim) : Option Claim := l.find? fun c => c.source == src

/-- Whether a list holds a level-5, -6 or -7 claim (R26, R184, R189). -/
def hasFireSide (l : List Claim) : Bool := l.any fun c => decide (5 ≤ c.level)

/-! ## The zone result -/

/-- The EXHAUST demands that stand ahead of the first SHUT claim (R10, case 3). -/
def demandsTaken : List Claim → List Nat
  | [] => []
  | c :: cs =>
    match c.kind with
    | .exhaust d => d :: demandsTaken cs
    | .shut => []

/-- The largest of a list of demands, 0 when there is none. -/
def largest : List Nat → Nat
  | [] => 0
  | n :: ns => max n (largest ns)

/-- The kind of a winning claim. -/
def ClaimKind.winning : ClaimKind → WinningKind
  | .exhaust _ => .exhaust
  | .shut => .shut

/-- The zone result of a claim list (R9, R10). -/
def resultOf : List Claim → ZoneResult
  | [] => .blank
  | c :: cs =>
    match c.kind with
    | .shut =>
      { directive := .shut, demand := 0, source := some c.source, level := some c.level, kind := some .shut }
    | .exhaust _ =>
      { directive := .opened, demand := largest (demandsTaken (c :: cs)), source := some c.source,
        level := some c.level, kind := some .exhaust }

/-- Whether a change of result raises ZONE-CHANGE: directive, demand or winning source changed (R11). -/
def ZoneResult.notedChange (old new : ZoneResult) : Bool :=
  old.directive != new.directive || old.demand != new.demand || old.source != new.source

/-- Whether a zone is fire class: its winning claim is an EXHAUST claim at level 6 or 7 (R113, R120). -/
def ZoneResult.fireClass (r : ZoneResult) : Bool :=
  (r.level == some 6 || r.level == some 7) && r.kind == some .exhaust

/-! ## The fire order list (R12 to R16) -/

/-- The zones of the ACTIVE entries: those within the origin limit, in list order (R13). -/
def activeZones (limit : Nat) (l : List FireEntry) : List Zone := (l.take limit).map FireEntry.zone

/-- Step 1: each zone in ALARM that has no entry is appended, in ascending zone number (R14). -/
def appendAlarms (map : BitVec 8) (l : List FireEntry) : List FireEntry :=
  l ++ ((Zone.all.filter fun z => maskHas map z && !(l.any fun e => e.zone == z)).map fun z =>
    { zone := z, alarmPresent := true })

/-- Step 2: each entry takes alarm-present from its zone's map entry (R14). -/
def markAlarms (map : BitVec 8) (l : List FireEntry) : List FireEntry :=
  l.map fun e => { e with alarmPresent := maskHas map e.zone }

/-- Step 3: with the reset flag, every entry whose zone is NORMAL is removed (R14). -/
def dropNormal (map : BitVec 8) (l : List FireEntry) : List FireEntry := l.filter fun e => maskHas map e.zone

/-- The fire order list after a fire update (R14). -/
def updateFireOrder (map : BitVec 8) (reset : Bool) (l : List FireEntry) : List FireEntry :=
  let l' := markAlarms map (appendAlarms map l)
  if reset then dropNormal map l' else l'

/-- The origins list of a zone: the ACTIVE zones whose adjacency sets name it, in list order (R21). -/
def originsOf (zones : ZonesBlock) (active : List Zone) (z : Zone) : List Zone :=
  active.filter fun o => maskHas (zones.adjacency.get o) z

/-- A claim list after the ADJACENCY claim of its zone is brought into line with its origins list (R21). -/
def alignAdjacency (origins : List Zone) (l : List Claim) : List Claim :=
  match origins, claimOf .adjacency l with
  | [], none => l
  | [], some _ => withoutSource .adjacency l
  | o :: os, some c => if c.origins = o :: os then l else placeIn (adjacencyClaim (o :: os)) l
  | o :: os, none => placeIn (adjacencyClaim (o :: os)) l

/-- A claim list after the FIRE-LINK claim of its zone is brought into line: placed when the zone has just become
ACTIVE, removed when it was ACTIVE and its entry is gone, otherwise untouched (R16). -/
def alignFireLink (was is : Bool) (l : List Claim) : List Claim :=
  match was, is with
  | false, true => placeIn fireLinkClaim l
  | true, false => withoutSource .fireLink l
  | _, _ => l

/-- The position of a zone in the fire order list, from 1; 0 when unlisted (section 13.4). -/
def firePosition (z : Zone) (l : List FireEntry) : Nat :=
  match l.findIdx? fun e => e.zone == z with
  | some i => i + 1
  | none => 0

/-! ## Smoke-control status (R26) -/

/-- The smoke-control status that a zone's winning claim, damper and group give it. The FAILED condition is tested
before the CONFIRMED condition. -/
def smokeStatus (claims : List Claim) (damper : DamperState) (available running : Bool) : SmokeStatus :=
  match claims with
  | [] => .none
  | c :: cs =>
    if hasFireSide (c :: cs) then
      match c.kind with
      | .exhaust _ =>
        if damper = .fault ∨ available = false then .failed
        else if damper = .opened ∧ running = true then .confirmedExhaust
        else .pending
      | .shut =>
        if damper = .fault then .failed else if damper = .closed then .confirmedShut else .pending
    else .none

end Sys2Proof.Machine
end

