-- ==== Sys2Proof/Machine/Dampers.lean ====
section
/-! DEFINITION. The damper state machine (chapter 6) on one damper record. -/

namespace Sys2Proof.Machine

/-- What the two filtered end switches say of the blade (R103). -/
inductive Reading where
  | atOpen
  | atClosed
  | between
  | disagree
  deriving DecidableEq, Repr

/-- The reading formed from the two filtered switches (R103). -/
def Damper.reading (d : Damper) : Reading :=
  match d.openSwitch, d.closedSwitch with
  | true, false => .atOpen
  | false, true => .atClosed
  | false, false => .between
  | true, true => .disagree

/-- The commanded end (R103). -/
def Damper.commandedEnd (d : Damper) : Reading := if d.commandOpen then .atOpen else .atClosed

/-- The damper at its commanded end, its timer and fault cause gone (R107, R111). -/
def Damper.home (d : Damper) : Damper :=
  { d with state := if d.commandOpen then .opened else .closed, timer := none, cause := .none }

/-- The damper in FAULT with a cause; the command is kept (R108, R109). -/
def Damper.fail (d : Damper) (cause : FaultCause) : Damper :=
  { d with state := .fault, timer := none, cause := cause }

/-- The damper travelling toward its command with a full travel time (R105, R106, R110, R111). -/
def Damper.depart (travel : Nat) (d : Damper) : Damper :=
  { d with state := if d.commandOpen then .opening else .closing, timer := some travel, cause := .none }

/-- The test of a travelling damper's reading: the commanded end ends the travel, DISAGREE is a fault, any other
reading leaves it travelling (R107). -/
def Damper.testEnd (d : Damper) : Damper :=
  if d.reading = d.commandedEnd then d.home
  else if d.reading = .disagree then d.fail .disagree
  else d

/-- The damper under a new command (R104 to R106, R111). A command equal to the present one changes nothing. -/
def Damper.obey (travel : Nat) (toOpen : Bool) (d : Damper) : Damper :=
  if d.commandOpen = toOpen then d
  else
    let d' := { d with commandOpen := toOpen }
    if d.state = .fault ∧ d.reading = .disagree then d' else (d'.depart travel).testEnd

/-- The damper after a change of its reading (R107, R109 to R111). -/
def Damper.read (travel : Nat) (d : Damper) : Damper :=
  match d.state with
  | .opening => d.testEnd
  | .closing => d.testEnd
  | .fault => if d.reading = d.commandedEnd then d.home else d
  | .opened =>
    if d.reading = .atOpen then d else if d.reading = .disagree then d.fail .disagree else d.depart travel
  | .closed =>
    if d.reading = .atClosed then d else if d.reading = .disagree then d.fail .disagree else d.depart travel

/-- The damper with a filtered end switch at a new level (R103). -/
def Damper.setSwitch (switch : EndSwitch) (made : Bool) (d : Damper) : Damper :=
  match switch with
  | .openEnd => { d with openSwitch := made }
  | .closedEnd => { d with closedSwitch := made }

/-- Whether the damper is under way. -/
def Damper.travelling (d : Damper) : Bool := d.state == .opening || d.state == .closing

/-- The damper at the expiry of its travel (R108): nothing unless it travels and its timer has reached 0. -/
def Damper.expire (d : Damper) : Damper :=
  if d.travelling = true ∧ d.timer = some 0 then d.fail .travel else d

/-- The damper under a new damper travel time (R114): the effects of R108 when that much time has already run. -/
def Damper.retime (old new : Nat) (d : Damper) : Damper :=
  match d.timer with
  | none => d
  | some left =>
    match rebase old new left with
    | some left' => { d with timer := some left' }
    | none => if d.travelling then d.fail .travel else d

/-- The damper as normal operation begins, commanded CLOSED and set from its reading (R115). -/
def Damper.start (travel : Nat) (openMade closedMade : Bool) : Damper :=
  let d := { Damper.blank with openSwitch := openMade, closedSwitch := closedMade }
  match d.reading with
  | .atClosed => d
  | .disagree => d.fail .disagree
  | _ => d.depart travel

end Sys2Proof.Machine
end

