-- ==== Sys2Proof/Machine/Groups.lean ====
section
/-! DEFINITION. The group allocator's computation (chapter 7): counting, wishes, fan power, the budget stage in class
order and the outcome of an allocation pass. Nothing here changes the state. -/

namespace Sys2Proof.Machine

/-- The power of one fan of rated power `rated` at a speed, rounded up (R122). -/
def power (rated speed : Nat) : Nat := ceilDiv (rated * (speed * speed * speed)) 1000000

/-- Whether a zone is counted in its group's demand (R113): a fire-class zone while its damper is commanded OPEN, any
other while its damper is OPEN. -/
def countedZone (r : ZoneResult) (d : Damper) : Bool :=
  if r.fireClass then d.commandOpen else d.state == .opened

/-- Whether zone `z` is counted at present. -/
def Plant.counted (p : Plant) (z : Zone) : Bool := countedZone (p.zones.get z).result (p.dampers.get z)

/-- Whether a fan's state is neither TRIPPED nor LOCKED (R118). -/
def FanState.inReach : FanState → Bool
  | .tripped => false
  | .locked => false
  | _ => true

/-- The available fans of a group, in duty order (R118). -/
def Plant.availableFans (p : Plant) (g : Group) : List Fan :=
  (p.gal.groups.get g).duty.filter fun f => (p.fsq.fans.get f).state.inReach

/-- While it holds, the pass runs in supply hold (R124) and FSQ is in supply hold (R158): TRANSFER, or a settle delay
running (R162). -/
def Plant.supplyHold (p : Plant) : Bool := p.spm.state == .transfer || p.spm.settle.isSome

/-- The budget in force for the supply, the settle indication, the BUDGET block and the BMS cap (R123, R166). -/
def budgetFor (cfg : Settings) (cap : Option Nat) (p : Plant) : Nat :=
  if p.supplyHold then 0
  else
    match p.spm.state with
    | .mains =>
      match cap with
      | some c => min cfg.budget.mains c
      | none => cfg.budget.mains
    | .generator => cfg.budget.generator
    | .transfer => 0

/-! ## Stage 1: counted zones, demand, class and wish (R120, R121) -/

/-- The class of a group with these results among its counted zones (R120). -/
def classOf (results : List ZoneResult) : GroupClass :=
  if results.any ZoneResult.fireClass then .fire
  else if largest (results.map fun r => r.level.getD 0) = 4 then .high
  else .normal

/-- The fan count and speed of a group's wish (R121, steps 1 to 4). -/
def wishOf (demand installed available vMin : Nat) : Nat × Nat :=
  if demand = 0 then (0, 0)
  else
    let k := ceilDiv (demand * installed) 100
    if k = 0 then (0, 0)
    else if available < k then (available, 100)
    else (k, max vMin (ceilDiv (demand * installed) k))

/-- A group's record as stage 1 forms it, with nothing granted yet (R120, R121). -/
def stageOne (cfg : Settings) (p : Plant) (g : Group) : GroupRec :=
  let counted := (cfg.groupZones g).filter p.counted
  let results := counted.map fun z => (p.zones.get z).result
  let demand := largest (results.map ZoneResult.demand)
  let free := p.availableFans g
  let wish := wishOf demand (cfg.groupFans g).length free.length (cfg.fans.vMin.get g)
  { counted := counted, demand := demand, cls := classOf results, installed := (cfg.groupFans g).length,
    available := free.length, count := wish.1, speed := wish.2,
    chosen := (free.take wish.1).map fun f => { fan := f, granted := 0 }, curtailment := .none,
    unserved := decide (0 < demand) && free.isEmpty, duty := (p.gal.groups.get g).duty }

/-! ## Stage 2: the budget in class order (R125 to R128) -/

/-- The power of the first `n` chosen fans of a group at one speed. -/
def groupPower (cfg : Settings) (r : GroupRec) (n speed : Nat) : Nat :=
  total ((r.chosen.take n).map fun c => power (cfg.fans.rated.get c.fan) speed)

/-- The groups of a class. -/
def ofClass (rs : PerGroup GroupRec) (cls : GroupClass) : List Group :=
  Group.all.filter fun g => (rs.get g).cls == cls

/-- The power of all chosen fans of a class, each group at the speed `speed` gives it. -/
def classPower (cfg : Settings) (rs : PerGroup GroupRec) (cls : GroupClass) (speed : Group → Nat) : Nat :=
  total ((ofClass rs cls).map fun g => groupPower cfg (rs.get g) (rs.get g).chosen.length (speed g))

/-- A group's record with its first `kept` chosen fans granted a speed and the rest 0. -/
def GroupRec.grant (r : GroupRec) (kept speed : Nat) (curtailment : Curtailment) : GroupRec :=
  { r with
    chosen := (r.chosen.take kept).map (fun c => { c with granted := speed }) ++
      (r.chosen.drop kept).map (fun c => { c with granted := 0 }),
    curtailment := curtailment }

/-- The records with every group of a class replaced. -/
def mapClass (rs : PerGroup GroupRec) (cls : GroupClass) (f : Group → GroupRec → GroupRec) : PerGroup GroupRec :=
  .build fun g => if (rs.get g).cls = cls then f g (rs.get g) else rs.get g

/-- A group's speed under a speed cap: the smaller of its speed and the cap, brought up to its V_min (R127). -/
def cappedSpeed (cfg : Settings) (rs : PerGroup GroupRec) (c : Nat) (g : Group) : Nat :=
  max (cfg.fans.vMin.get g) (min (rs.get g).speed c)

/-- The largest cap from `20 + n` down to 20 that fits (R127). -/
def searchCap (fits : Nat → Bool) : Nat → Option Nat
  | 0 => if fits Config.lowestCap then some Config.lowestCap else none
  | n + 1 => if fits (Config.lowestCap + (n + 1)) then some (Config.lowestCap + (n + 1)) else searchCap fits n

/-- The group that loses its last chosen fan next: that with the most chosen fans left, of equals the one with the
higher group number; none when no chosen fan is left (R128). -/
def shedFrom (kept : PerGroup Nat) : Option Group :=
  Group.all.foldl
    (fun best g =>
      if kept.get g = 0 then best
      else
        match best with
        | none => some g
        | some b => if kept.get b ≤ kept.get g then some g else some b)
    none

/-- Shedding, one chosen fan at a time, until the sum is at most `limit` or no chosen fan is left (R128). -/
def shed (sum : PerGroup Nat → Nat) (limit : Nat) : Nat → PerGroup Nat → PerGroup Nat
  | 0, kept => kept
  | fuel + 1, kept =>
    if sum kept ≤ limit then kept
    else
      match shedFrom kept with
      | none => kept
      | some g => shed sum limit fuel (kept.set g (kept.get g - 1))

/-- The records and the remainder after a class has been granted its wish, capped or shed against the remainder
(R126 to R128). A group with no chosen fan has none reduced and is marked none, also while it is unserved in a class that
is capped or shed (DESIGN CHOICE, log entry 33). -/
def serveClass (cfg : Settings) (cls : GroupClass) (rs : PerGroup GroupRec) (remainder : Nat) :
    PerGroup GroupRec × Nat :=
  let wish := classPower cfg rs cls fun g => (rs.get g).speed
  if wish ≤ remainder then
    (mapClass rs cls fun _ r => r.grant r.chosen.length r.speed .none, remainder - wish)
  else
    match searchCap (fun c => decide (classPower cfg rs cls (cappedSpeed cfg rs c) ≤ remainder)) 80 with
    | some c =>
      (mapClass rs cls fun g r =>
        let v := cappedSpeed cfg rs c g
        r.grant r.chosen.length v (if r.chosen ≠ [] ∧ v < r.speed then .capped else .none),
        remainder - classPower cfg rs cls (cappedSpeed cfg rs c))
    | none =>
      let power (kept : PerGroup Nat) :=
        total ((ofClass rs cls).map fun g => groupPower cfg (rs.get g) (kept.get g) (cfg.fans.vMin.get g))
      let whole : PerGroup Nat := .build fun g => if (rs.get g).cls = cls then (rs.get g).chosen.length else 0
      let kept := shed power remainder (total (Group.all.map whole.get)) whole
      (mapClass rs cls fun g r =>
        r.grant (kept.get g) (cfg.fans.vMin.get g)
          (if kept.get g < r.chosen.length then .shed
          else if r.chosen ≠ [] ∧ cfg.fans.vMin.get g < r.speed then .capped
          else .none),
        remainder - power kept)

/-! ## The outcome of a pass (R119, R124, R129, R130) -/

/-- What a pass computes: every group's record, every fan's grant, whether F exceeds B, and whether the outcome is
short. -/
structure Pass where
  groups : PerGroup GroupRec
  grants : PerFan Grant
  fireShort : Bool
  short : Bool
  deriving DecidableEq, Repr

/-- The grant the records give a fan: 0 with the flag clear for every fan that is not chosen (R129). -/
def grantOf (rs : PerGroup GroupRec) (f : Fan) : Grant :=
  (Group.all.findSome? fun g =>
    ((rs.get g).chosen.find? fun c => c.fan == f).map fun c =>
      { target := c.granted, fire := decide (0 < c.granted) && (rs.get g).cls == .fire : Grant }).getD
    { target := 0, fire := false }

/-- Whether a group's record grants any fan a speed (R129). -/
def GroupRec.grantsAny (r : GroupRec) : Bool := r.chosen.any fun c => decide (0 < c.granted)

/-- One allocation pass, computed whole from the present state (R119): stage 1, and outside a supply hold stage 2. -/
def allocate (cfg : Settings) (p : Plant) : Pass :=
  let one : PerGroup GroupRec := .build (stageOne cfg p)
  if p.supplyHold then
    { groups := one, grants := .build fun _ => { target := 0, fire := false }, fireShort := false, short := false }
  else
    let fire := classPower cfg one .fire fun g => (one.get g).speed
    let granted := mapClass one .fire fun _ r => r.grant r.chosen.length r.speed .none
    let high := serveClass cfg .high granted (p.gal.budget - fire)
    let all := (serveClass cfg .normal high.1 high.2).1
    let fireShort := decide (p.gal.budget < fire)
    { groups := all, grants := .build (grantOf all), fireShort := fireShort,
      short := fireShort || Group.all.any fun g => (all.get g).curtailment != .none }

/-! ## Duty orders (R117) -/

/-- A duty order with a fan moved to its end; a fan that is not in it leaves it as it is. -/
def sendBack (f : Fan) (duty : List Fan) : List Fan :=
  if duty.contains f then duty.filter (fun x => x != f) ++ [f] else duty

/-- A duty order with its lead fan moved to its end (R129). -/
def rotateDuty : List Fan → List Fan
  | [] => []
  | f :: fs => fs ++ [f]

/-- A group's duty order under a new FANS block: fans that stay keep their order, fans newly assigned join the end in
ascending number (R117). -/
def rebuildDuty (new : Settings) (g : Group) (duty : List Fan) : List Fan :=
  let kept := duty.filter fun f => new.fans.group.get f == some g
  kept ++ (new.groupFans g).filter fun f => !kept.contains f

end Sys2Proof.Machine
end

