-- ==== Sys2Proof/Machine/Fans.lean ====
section
/-! DEFINITION. The fan sequencer (chapter 8) on the plant: fan records, the start queue, staging, launch, ramp, failures
and retries. An operation that can trip fans answers the plant together with the fans that entered TRIPPED, in order;
GAL takes those reports afterwards (R155). -/

namespace Sys2Proof.Machine

/-- A plant and the fans that entered TRIPPED on the way, earliest first. -/
abbrev Reported := Plant × List Fan

/-- The plant with a fan record replaced. -/
def Plant.setFan (p : Plant) (f : Fan) (r : FanRec) : Plant :=
  { p with fsq := { p.fsq with fans := p.fsq.fans.set f r } }

/-- The record of a fan. -/
def Plant.fan (p : Plant) (f : Fan) : FanRec := p.fsq.fans.get f

/-! ## Fan records (R134) -/

/-- Whether the fan is in STARTING, PROVING or RUNNING: the states with a run command. -/
def FanState.inService : FanState → Bool
  | .starting => true
  | .proving => true
  | .running => true
  | _ => false

/-- The record with the run command released, its outputs at rest and its timer stopped, in a new state. -/
def FanRec.release (r : FanRec) (state : FanState) : FanRec :=
  { r with state := state, output := 0, run := false, fireOverride := false, timer := none }

/-- The record coasting in STOPPING (R136, R149). -/
def FanRec.coastDown (coast : Nat) (r : FanRec) : FanRec := { r.release .stopping with timer := some coast }

/-- The power a fan is accounted at while it is in service: at the larger of its output and its target (R139). -/
def account (cfg : Settings) (p : Plant) (f : Fan) : Nat :=
  let r := p.fan f
  if r.state.inService then power (cfg.fans.rated.get f) (max r.output r.target) else 0

/-- The reservation of the staged entry (R139). -/
def Plant.reserved (p : Plant) : Nat :=
  match p.fsq.staged with
  | some s => s.reservation
  | none => 0

/-- The committed power (R139). -/
def committed (cfg : Settings) (p : Plant) : Nat := total (Fan.all.map (account cfg p)) + p.reserved

/-- The reservation a fan's entry needs: its power at its target (R140). -/
def reservation (cfg : Settings) (p : Plant) (f : Fan) : Nat := power (cfg.fans.rated.get f) (p.fan f).target

/-- Sequence quiet: the queue is empty and no fan is in STARTING (R145). -/
def Plant.quiet (p : Plant) : Bool :=
  p.fsq.queue.isEmpty && Fan.all.all fun f => (p.fan f).state != .starting

/-! ## The start queue (R137, R138) -/

/-- The order of the start queue: FIRE ahead of NORMAL, then by arrival. -/
def QueueEntry.ahead (a b : QueueEntry) : Bool :=
  (a.fire && !b.fire) || (a.fire == b.fire && decide (a.arrival < b.arrival))

/-- A queue with an entry at the place its class and arrival give it. -/
def enterQueue (e : QueueEntry) : List QueueEntry → List QueueEntry
  | [] => [e]
  | x :: xs => if e.ahead x then e :: x :: xs else x :: enterQueue e xs

/-- A queue put in order again after classes changed; each entry keeps its arrival (R138). -/
def sortQueue (q : List QueueEntry) : List QueueEntry := q.foldr enterQueue []

/-- The plant with the staged entry unstaged and its reservation released. -/
def Plant.unstage (p : Plant) : Plant := { p with fsq := { p.fsq with staged := none } }

/-- The plant with the staged entry unstaged if it is a fan's. -/
def Plant.unstageFan (p : Plant) (f : Fan) : Plant :=
  match p.fsq.staged with
  | some s => if s.fan = f then p.unstage else p
  | none => p

/-- Whether the staged entry is of NORMAL class. -/
def Plant.stagedNormal (p : Plant) : Bool :=
  match p.fsq.staged with
  | some s => p.fsq.queue.any fun e => e.fan == s.fan && !e.fire
  | none => false

/-- A fan joins the start queue (R137); a FIRE entry that joins while a NORMAL entry is staged pre-empts it (R141). -/
def Plant.join (p : Plant) (f : Fan) : Plant :=
  let e : QueueEntry := { fan := f, fire := (p.fan f).fire, arrival := p.fsq.nextArrival }
  let p' := if e.fire && p.stagedNormal then p.unstage else p
  { p' with fsq := { p'.fsq with queue := enterQueue e p'.fsq.queue, nextArrival := p'.fsq.nextArrival + 1 } }

/-- A fan's entry leaves the queue, unstaged if it was staged; the entries behind it close up (R138). -/
def Plant.leave (p : Plant) (f : Fan) : Plant :=
  let p' := p.unstageFan f
  { p' with fsq := { p'.fsq with queue := p'.fsq.queue.filter fun e => e.fan != f } }

/-- A fan enters QUEUED and joins the start queue. -/
def Plant.enqueue (p : Plant) (f : Fan) : Plant :=
  (p.setFan f { p.fan f with state := .queued, timer := none }).join f

/-- The position of a fan in the queue, from 1 at the head; 0 when it is not queued (R138). -/
def queuePosition (f : Fan) (q : List QueueEntry) : Nat :=
  match q.findIdx? fun e => e.fan == f with
  | some i => i + 1
  | none => 0

/-! ## Failures (R151 to R153) -/

/-- A fan trips (R152); GAL hears of it afterwards. -/
def Plant.trip (p : Plant) (f : Fan) (cause : TripCause) : Reported :=
  ((p.setFan f { (p.fan f).release .tripped with cause := cause }).raise .fanTrip, [f])

/-- A failure of a fan: a trip while its fire flag is clear (R152), otherwise a counted attempt, which the fan spends on
a retry in the queue or, at the third, on a trip (R153). -/
def Plant.failFan (p : Plant) (f : Fan) (cause : TripCause) : Reported :=
  let r := p.fan f
  if r.fire then
    let p' := p.setFan f { r with attempts := r.attempts + 1 }
    if r.attempts + 1 < Config.maxAttempts then
      ((p'.setFan f ((p'.fan f).release .queued)).join f, [])
    else p'.trip f cause
  else p.trip f cause

/-! ## Proving a start (R146, R147) -/

/-- A fan enters PROVING and meets its entry test: RUNNING at once when the airflow input is made (R147). -/
def Plant.prove (cfg : Settings) (p : Plant) (f : Fan) : Plant :=
  let r := p.fan f
  if r.airflow then p.setFan f { r with state := .running, timer := none, attempts := 0 }
  else p.setFan f { r with state := .proving, timer := some cfg.timers.tProve }

/-- The entry tests of STARTING: the drive fault before the running feedback (R146). -/
def Plant.startTests (cfg : Settings) (p : Plant) (f : Fan) : Reported :=
  let r := p.fan f
  if r.driveFault && !r.fireOverride then p.failFan f .driveFault
  else if r.running then (p.prove cfg f, [])
  else (p, [])

/-! ## Staging, launch and the queue test (R140, R144, R145) -/

/-- Whether the head entry may be staged (R140). -/
def mayStage (cfg : Settings) (p : Plant) (e : QueueEntry) : Bool :=
  p.fsq.staged.isNone && !p.fsq.hold &&
    (e.fire || decide (committed cfg p + reservation cfg p e.fan ≤ p.fsq.budget))

/-- The head entry is staged if R140 allows it. -/
def stageHead (cfg : Settings) (p : Plant) : Plant :=
  match p.fsq.queue with
  | [] => p
  | e :: _ =>
    if mayStage cfg p e then
      { p with fsq := { p.fsq with staged := some { fan := e.fan, reservation := reservation cfg p e.fan } } }
    else p

/-- Whether the staged entry may be launched: no fan is in STARTING and the start-spacing timer is stopped (R144). -/
def mayLaunch (p : Plant) : Bool :=
  p.fsq.spacing.isNone && Fan.all.all fun f => (p.fan f).state != .starting

/-- A fan's record at its launch (R144). -/
def FanRec.launched (tRun vMin : Nat) (r : FanRec) : FanRec :=
  { r with state := .starting, output := vMin, run := true, fireOverride := r.fire, timer := some tRun }

/-- The launch of a fan: out of the queue, into STARTING, through its entry tests (R144, R146). -/
def launch (cfg : Settings) (p : Plant) (f : Fan) : Reported :=
  let p' := p.leave f
  let p'' := { p' with fsq := { p'.fsq with spacing := some cfg.timers.spacing } }
  (p''.setFan f ((p''.fan f).launched cfg.timers.tRun (cfg.fanMin f))).startTests cfg f

/-- A queue test: stage the head, launch the staged entry, and after a launch stage the new head (R145). -/
def queueTest (cfg : Settings) (p : Plant) : Reported :=
  let p' := stageHead cfg p
  match p'.fsq.staged with
  | none => (p', [])
  | some s =>
    if mayLaunch p' then
      let (q, trips) := launch cfg p' s.fan
      (stageHead cfg q, trips)
    else (p', [])

/-! ## Grants (R136, R138, R142, R154) -/

/-- One fan's grant applied according to its state (R136). -/
def applyGrant (cfg : Settings) (p : Plant) (f : Fan) (g : Grant) : Plant :=
  let r := { p.fan f with target := g.target, fire := g.fire }
  let p' := p.setFan f r
  match r.state with
  | .off => if g.target = 0 then p' else p'.enqueue f
  | .stopping => if g.target = 0 then p' else p'.enqueue f
  | .queued => if g.target = 0 then (p'.leave f).setFan f (r.release .off) else p'
  | .starting => if g.target = 0 then p'.setFan f (r.coastDown cfg.timers.coast) else p'
  | .proving => if g.target = 0 then p'.setFan f (r.coastDown cfg.timers.coast) else p'
  | .running => if g.target = 0 then p'.setFan f (r.coastDown cfg.timers.coast) else p'
  | .tripped => p'
  | .locked => p'

/-- Every queued entry takes the class its fan's fire flag gives it and its place in the order (R137, R138): an entry that
becomes FIRE goes ahead of a FIRE entry that joined later, also of a staged one (DESIGN CHOICE, log entry 34). -/
def reclass (p : Plant) : Plant :=
  { p with
    fsq := { p.fsq with queue := sortQueue (p.fsq.queue.map fun e => { e with fire := (p.fan e.fan).fire }) } }

/-- The re-test of the staged entry after a pass (R142): one that no longer stands at the head is unstaged, a FIRE entry
too (DESIGN CHOICE, log entry 34). -/
def retest (cfg : Settings) (p : Plant) : Plant :=
  match p.fsq.staged, p.fsq.queue with
  | none, _ => p
  | some _, [] => p.unstage
  | some s, e :: _ =>
    if e.fan = s.fan then
      let p' := { p with fsq := { p.fsq with staged := some { s with reservation := reservation cfg p s.fan } } }
      if !e.fire && decide (p.fsq.budget < committed cfg p') then p.unstage else p'
    else p.unstage

/-- One fan's fire-override output set or cleared after a pass. A drive fault that the clearing uncovers is a failure
(R154). -/
def setOverride (x : Reported) (f : Fan) : Reported :=
  let r := x.1.fan f
  let p' := x.1.setFan f { r with fireOverride := r.run && r.fire }
  if r.fireOverride && !(r.run && r.fire) && r.state.inService && r.driveFault then
    let (q, trips) := p'.failFan f .driveFault
    (q, x.2 ++ trips)
  else (p', x.2)

/-- FSQ's handling of a pass, in the order R145 gives: B, the grants in ascending fan number, the classes, the re-test,
the fire-override outputs, the queue test. The rule orders the grants alone: that the outputs too are set in ascending fan
number, and that fans which fail so are reported to GAL in that order, is the model's (DESIGN CHOICE, log entry 35). -/
def fsqPass (cfg : Settings) (grants : PerFan Grant) (p : Plant) : Reported :=
  let p1 := { p with fsq := { p.fsq with budget := p.gal.budget } }
  let p2 := Fan.all.foldl (fun q f => applyGrant cfg q f (grants.get f)) p1
  let (p3, trips) := Fan.all.foldl setOverride (retest cfg (reclass p2), [])
  let (p4, more) := queueTest cfg p3
  (p4, trips ++ more)

/-! ## The ramp (R150) -/

/-- The output of a fan after step 1: an output above its target falls by the ramp step, or to the target if nearer. -/
def rampDown (step output target : Nat) : Nat := if target < output then max target (output - step) else output

/-- The output of a fan after step 3: an output below its target rises by the ramp step, or to the target if nearer. -/
def rampUp (step output target : Nat) : Nat := if output < target then min target (output + step) else output

/-- Whether a fan is ramped: PROVING or RUNNING. -/
def FanState.ramped : FanState → Bool
  | .proving => true
  | .running => true
  | _ => false

/-- The end of a ramp period: decreases, the budget test, increases (R150). -/
def ramp (cfg : Settings) (p : Plant) : Plant :=
  let step := cfg.timers.rampStep
  let lowered : PerFan FanRec := .build fun f =>
    let r := p.fan f
    if r.state.ramped then { r with output := rampDown step r.output r.target } else r
  let p1 := { p with fsq := { p.fsq with fans := lowered } }
  let room := decide (committed cfg p1 ≤ p1.fsq.budget)
  let raised : PerFan FanRec := .build fun f =>
    let r := p1.fan f
    if r.state.ramped && decide ((p.fan f).output < r.target) && (r.fire || room) then
      { r with output := rampUp step r.output r.target }
    else r
  { p1 with fsq := { p1.fsq with fans := raised } }

/-! ## Supply hold (R158) -/

/-- A fan's record on entry into TRANSFER: OFF unless TRIPPED or LOCKED, target and attempts 0. -/
def FanRec.dropped (r : FanRec) : FanRec :=
  let r' := { r with target := 0, attempts := 0 }
  if r.state.inReach then r'.release .off else r'

/-- FSQ's handling of an entry into TRANSFER (R158). -/
def enterHold (p : Plant) : Plant :=
  { p with
    fsq :=
      { p.fsq with
        fans := .build fun f => (p.fan f).dropped, queue := [], staged := none, spacing := none, hold := true } }

end Sys2Proof.Machine
end

