-- ==== Sys2Proof/Machine/Ops.lean ====
section
/-! DEFINITION. The shared operations on the plant: smoke-control statuses, the allocation pass with all it sets off, the
handing-on of zone results, claim requests, the fire update, damper and fan events, and the supply (R11, R14, R112,
R119, R155, R163 to R165). Each is one handling: what it hands on is carried out inside it. -/

namespace Sys2Proof.Machine

/-! ## Smoke-control status (R26 to R28) -/

/-- Whether a group has an available fan (R118). -/
def hasAvailable (cfg : Settings) (p : Plant) (g : Group) : Bool :=
  (cfg.groupFans g).any fun f => (p.fan f).state.inReach

/-- Whether a fan of a group is RUNNING. -/
def hasRunning (cfg : Settings) (p : Plant) (g : Group) : Bool :=
  (cfg.groupFans g).any fun f => (p.fan f).state == .running

/-- The status the present inputs give a zone (R26). -/
def statusOf (cfg : Settings) (p : Plant) (z : Zone) : SmokeStatus :=
  smokeStatus (p.zones.get z).claims (p.dampers.get z).state (hasAvailable cfg p (cfg.zones.group.get z))
    (hasRunning cfg p (cfg.zones.group.get z))

/-- Every zone's status computed afresh (R27); a change of any raises ZONE-CHANGE (R28). A handling does this at fixed
moments, so that a status that changes and returns between two of them raises nothing, and one that differs at one of
them raises it even if the handling brings it back (DESIGN CHOICE, log entry 32). -/
def refreshStatus (cfg : Settings) (p : Plant) : Plant :=
  let changed := Zone.all.any fun z => (p.zones.get z).status != statusOf cfg p z
  ({ p with zones := .build fun z => { p.zones.get z with status := statusOf cfg p z } }).raiseIf changed .zoneChange

/-! ## The allocation pass and what it sets off (R119, R129, R130, R155) -/

/-- The plant with a pass's outcome recorded; a short outcome raises BUDGET-SHORT (R130). -/
def recordPass (x : Pass) (p : Plant) : Plant :=
  ({ p with gal := { p.gal with groups := x.groups, grants := x.grants, fireShort := x.fireShort } }).raiseIf x.short
    .budgetShort

/-- The plant with the duty order of a group changed. -/
def Plant.setDuty (p : Plant) (g : Group) (duty : List Fan) : Plant :=
  { p with gal := { p.gal with groups := p.gal.groups.set g { p.gal.groups.get g with duty := duty } } }

/-- Rotation at the end of a pass: each group that `now` granted no fan, and `before` granted at least one, moves its
lead fan to the end (R129). -/
def rotate (before now : PerGroup GroupRec) (p : Plant) : Plant :=
  Group.all.foldl
    (fun q g =>
      if (before.get g).grantsAny && !(now.get g).grantsAny then
        q.setDuty g (rotateDuty (q.gal.groups.get g).duty)
      else q)
    p

/-- A fan that entered TRIPPED or LOCKED goes to the end of its group's duty order (R117). -/
def sendToBack (cfg : Settings) (f : Fan) (p : Plant) : Plant :=
  match cfg.fans.group.get f with
  | some g => p.setDuty g (sendBack f (p.gal.groups.get g).duty)
  | none => p

/-- An allocation pass with everything it sets off: its outcome is recorded, FSQ handles the grants, the duty orders
rotate, and then GAL takes FSQ's reports of fans that tripped meanwhile, each with a pass of its own (R119, R129, R155).
A report is handled whole: a fan that its pass trips is reported, and goes to the end of its duty order (R117), before the
reports still waiting, an order that the spec leaves open (DESIGN CHOICE, log entry 36).
A fan that trips stays TRIPPED, so at most twelve passes follow one another this way; the first argument bounds them. -/
def passes (cfg : Settings) : Nat → Plant → Plant
  | 0, p => p
  | fuel + 1, p =>
    let x := allocate cfg p
    let (q, trips) := fsqPass cfg x.grants (recordPass x p)
    trips.foldl (fun q f => passes cfg fuel (sendToBack cfg f q))
      (rotate p.gal.groups x.groups (refreshStatus cfg q))

/-- GAL runs an allocation pass (R119). -/
def runPass (cfg : Settings) (p : Plant) : Plant := passes cfg 13 p

/-- GAL takes the report that a fan entered TRIPPED or LOCKED (R117). -/
def takeReport (cfg : Settings) (p : Plant) (f : Fan) : Plant := runPass cfg (sendToBack cfg f p)

/-- The end of an FSQ event that is no pass: CLA hears of the states, GAL takes the reports (R155), each
whole with the reports that its pass brings (DESIGN CHOICE, log entry 36). -/
def report (cfg : Settings) (x : Reported) : Plant := x.2.foldl (takeReport cfg) (refreshStatus cfg x.1)

/-- A queue test at the end of a handling, and what it sets off (R145). -/
def testQueue (cfg : Settings) (p : Plant) : Plant := report cfg (queueTest cfg p)

/-- An FSQ event that ends with a queue test (R145, R155). -/
def fanEvent (cfg : Settings) (x : Reported) : Plant := testQueue cfg (report cfg x)

/-! ## Dampers (R112) -/

/-- A change of one damper record; entering FAULT raises DAMPER-FAULT (R108, R109). -/
def changeDamper (z : Zone) (f : Damper → Damper) (p : Plant) : Plant :=
  let old := p.dampers.get z
  let new := f old
  ({ p with dampers := p.dampers.set z new }).raiseIf (new.state == DamperState.fault && old.state != DamperState.fault) .damperFault

/-- A damper event: the change, the status it gives, and a pass when it alters whether the zone is counted (R112). -/
def damperEvent (cfg : Settings) (z : Zone) (f : Damper → Damper) (p : Plant) : Plant :=
  let q := refreshStatus cfg (changeDamper z f p)
  if p.counted z = q.counted z then q else runPass cfg q

/-! ## Zone results handed on (R1, R11) -/

/-- The zone results recomputed from the claim lists (R1). -/
def recomputeResults (p : Plant) : Plant :=
  { p with zones := .build fun z => { p.zones.get z with result := resultOf (p.zones.get z).claims } }

/-- A changed directive handed to the damper controller (R11, R104). -/
def commandDampers (cfg : Settings) (before : PerZone ZoneRec) (p : Plant) : Plant :=
  Zone.all.foldl
    (fun q z =>
      if (before.get z).result.directive = (p.zones.get z).result.directive then q
      else changeDamper z (Damper.obey cfg.timers.travel ((p.zones.get z).result.directive == .opened)) q)
    p

/-- The end of every CLA request: the results recomputed, compared with those before the request and handed on to the
damper controller, the pending-event set and the group allocator (R11). -/
def handOn (cfg : Settings) (p : Plant) : Plant :=
  let q := recomputeResults p
  let noted := Zone.all.any fun z => (p.zones.get z).result.notedChange (q.zones.get z).result
  let changed := Zone.all.any fun z => (p.zones.get z).result != (q.zones.get z).result
  let r := refreshStatus cfg (commandDampers cfg p.zones (q.raiseIf noted .zoneChange))
  if changed then runPass cfg r else r

/-- The plant with the claim list of a zone changed. -/
def Plant.setClaims (p : Plant) (z : Zone) (l : List Claim) : Plant :=
  { p with zones := p.zones.set z { p.zones.get z with claims := l } }

/-- CLA takes a placement (R6). -/
def place (cfg : Settings) (z : Zone) (c : Claim) (p : Plant) : Plant :=
  handOn cfg (p.setClaims z (placeIn c (p.zones.get z).claims))

/-- CLA takes a removal (R7). -/
def remove (cfg : Settings) (z : Zone) (src : Source) (p : Plant) : Plant :=
  handOn cfg (p.setClaims z (withoutSource src (p.zones.get z).claims))

/-- Whether any zone holds a level-5, -6 or -7 claim (R184, R189). -/
def Plant.fireSide (p : Plant) : Bool := Zone.all.any fun z => hasFireSide (p.zones.get z).claims

/-! ## The fire update (R14 to R16, R18, R21, R22) -/

/-- CLA takes a fire update, whole: the list, the statuses by position, the fire claims once, FIRE-CHANGE when the list
changed, and the results handed on. -/
def fireUpdate (cfg : Settings) (map : BitVec 8) (reset : Bool) (p : Plant) : Plant :=
  let old := activeZones cfg.zones.originLimit p.fireOrder
  let list := updateFireOrder map reset p.fireOrder
  let new := activeZones cfg.zones.originLimit list
  let claims (z : Zone) :=
    let l := alignFireLink (old.contains z) (new.contains z) (p.zones.get z).claims
    if old = new then l else alignAdjacency (originsOf cfg.zones new z) l
  let q : Plant :=
    { p with fireOrder := list, zones := .build fun z => { p.zones.get z with claims := claims z } }
  handOn cfg (q.raiseIf (list != p.fireOrder) .fireChange)

/-! ## The budget in force and the supply (R123, R163 to R165) -/

/-- GAL recomputes B (R123). -/
def setBudgetInForce (cfg : Settings) (cap : Option Nat) (p : Plant) : Plant :=
  { p with gal := { p.gal with budget := budgetFor cfg cap p } }

/-- GAL recomputes B and runs a pass when it changed (R123). -/
def budgetChange (cfg : Settings) (cap : Option Nat) (p : Plant) : Plant :=
  let q := setBudgetInForce cfg cap p
  if q.gal.budget = p.gal.budget then q else runPass cfg q

/-- GAL's handling of a report of the supply monitor: B and a pass (R119, R123). -/
def supplyReport (cfg : Settings) (cap : Option Nat) (p : Plant) : Plant :=
  runPass cfg (setBudgetInForce cfg cap p)

/-- The supply state that the filtered contacts decode to (R162). -/
def decodeSupply (mainsHealthy generatorOnline : Bool) : SupplyState :=
  if mainsHealthy then .mains else if generatorOnline then .generator else .transfer

/-- Entry into TRANSFER (R163): the settle timer is cancelled, FSQ enters supply hold, GAL runs its pass in supply
hold. -/
def enterTransfer (cfg : Settings) (cap : Option Nat) (p : Plant) : Plant :=
  let q := { p with spm := { p.spm with state := .transfer, settle := none } }
  (supplyReport cfg cap (refreshStatus cfg (enterHold q))).raise .supplyChange

/-- Entry into MAINS or GENERATOR from TRANSFER (R164): the settle delay starts and the hold stays. -/
def returnSupply (cfg : Settings) (cap : Option Nat) (next : SupplyState) (p : Plant) : Plant :=
  (supplyReport cfg cap { p with spm := { p.spm with state := next, settle := some cfg.timers.settle } }).raise
    .supplyChange

/-- GENERATOR to MAINS without a break (R165): no settle delay starts and a running one continues. -/
def closedTransition (cfg : Settings) (cap : Option Nat) (p : Plant) : Plant :=
  (supplyReport cfg cap { p with spm := { p.spm with state := .mains } }).raise .supplyChange

/-- A change of the decoded supply state (R163 to R165); none when it is as before. -/
def changeSupply (cfg : Settings) (cap : Option Nat) (next : SupplyState) (p : Plant) : Plant :=
  match p.spm.state, next with
  | .mains, .mains => p
  | .generator, .generator => p
  | .transfer, .transfer => p
  | .mains, .transfer => enterTransfer cfg cap p
  | .generator, .transfer => enterTransfer cfg cap p
  | .transfer, .mains => returnSupply cfg cap .mains p
  | .transfer, .generator => returnSupply cfg cap .generator p
  | .generator, .mains => closedTransition cfg cap p
  | .mains, .generator => returnSupply cfg cap .generator (enterTransfer cfg cap p)

/-- The settle delay expires (R164): FSQ leaves supply hold with a queue test, GAL applies the budget of the supply. -/
def endSettle (cfg : Settings) (cap : Option Nat) (p : Plant) : Plant :=
  let q := { p with spm := { p.spm with settle := none }, fsq := { p.fsq with hold := false } }
  supplyReport cfg cap (testQueue cfg q)

end Sys2Proof.Machine
end

