-- ==== Sys2Proof/Machine/Sensing.lean ====
section
/-! DEFINITION. The channel scanner (chapter 2) and the fume evaluator (chapter 3): samples, faults, the inhibit list,
alarm states, channel demands, and each zone's GAS claim with its run-on. -/

namespace Sys2Proof.Machine

/-! ## Reaching the plant from the state -/

/-- The settings in force (R186). -/
abbrev State.cfg (s : State) : Settings := s.sst.inForce

/-- The part with its plant changed. -/
def State.onPlant (s : State) (f : Plant → Plant) : State := { s with plant := f s.plant }

/-- A placement sent to CLA (R6). -/
def State.place (s : State) (z : Zone) (c : Claim) : State := s.onPlant (Machine.place s.cfg z c)

/-- A removal sent to CLA (R7). -/
def State.remove (s : State) (z : Zone) (src : Source) : State := s.onPlant (Machine.remove s.cfg z src)

/-! ## Samples (R33 to R39, R49) -/

/-- The concentration of a raw code on a channel of full scale `fs`; none when out of range (R33). -/
def concentration (fs q : Nat) : Option Nat :=
  if q < 128 then none
  else if q < 160 then some 0
  else if q ≤ 800 then some ((q - 160) * fs / 640)
  else if q ≤ 840 then some fs
  else none

/-- A ring after a concentration enters it; the first entry into an empty ring fills all four slots (R38, R39). -/
def enterRing (c : Nat) : Option Ring → Ring
  | none => { first := c, second := c, third := c, newest := c }
  | some r => { first := r.second, second := r.third, third := r.newest, newest := c }

/-- The average of a ring (R38). -/
def Ring.mean (r : Ring) : Nat := (r.first + r.second + r.third + r.newest + 2) / 4

/-- A channel record with a concentration entered and the average recomputed (R34, R38). -/
def ChannelRec.enter (c : Nat) (r : ChannelRec) : ChannelRec :=
  { r with ring := some (enterRing c r.ring), average := (enterRing c r.ring).mean }

/-- What a sample did, for FEV and the masters. -/
inductive SampleEffect where
  | nothing
  | entered
  | faultConfirmed
  | faultEnded
  deriving DecidableEq, Repr

/-- Whether the channel is in FAULT, or INHIBITED with a fault held: its samples are then handled by R36. -/
def ChannelRec.faulted (r : ChannelRec) : Bool :=
  r.condition == .fault || (r.condition == .inhibited && r.faultHeld)

/-- A channel record after the third consecutive out-of-range sample: the fault is confirmed (R35, R49). -/
def ChannelRec.confirmFault (r : ChannelRec) : ChannelRec :=
  { r with
    condition := if r.condition = .inhibited then .inhibited else .fault
    faultHeld := r.condition == .inhibited
    ring := none, average := 0, inRun := 0, outRun := Config.faultRun }

/-- A channel record after the third consecutive in-range sample of a fault: the ring is primed (R37, R49). -/
def ChannelRec.endFault (c : Nat) (r : ChannelRec) : ChannelRec :=
  { ({ r with ring := none }).enter c with
    condition := if r.condition = .inhibited then .inhibited else .active
    faultHeld := false, inRun := 0, outRun := 0 }

/-- One sample of a channel (R34 to R37, R41, R49). An UNUSED channel is not sampled. -/
def ChannelRec.sample (fs q : Nat) (r : ChannelRec) : ChannelRec × SampleEffect :=
  let r0 := { r with raw := q, fresh := true }
  if r.condition = .unused then (r, .nothing)
  else if r.faulted then
    match concentration fs q with
    | none => ({ r0 with inRun := 0, outRun := Config.faultRun }, .nothing)
    | some c =>
      if Config.faultRun ≤ r.inRun + 1 then (r0.endFault c, .faultEnded)
      else ({ r0 with inRun := r.inRun + 1, outRun := 0 }, .nothing)
  else
    match concentration fs q with
    | some c => ({ r0.enter c with outRun := 0 }, .entered)
    | none =>
      if Config.faultRun ≤ r.outRun + 1 then (r0.confirmFault, .faultConfirmed)
      else ({ r0 with outRun := r.outRun + 1 }, .nothing)

/-! ## Evaluation of a reading (R54 to R60) -/

/-- The venting flag, with hysteresis (R55). -/
def ventingAfter (set : ChannelSetting) (c : Nat) (flag : Bool) : Bool :=
  if set.start ≤ c then true else if c < set.start - set.hysteresis then false else flag

/-- The channel demand (R56). -/
def channelDemand (set : ChannelSetting) (vStart c : Nat) (flag : Bool) : Nat :=
  if flag = false then 0
  else if c < set.start then vStart
  else if c < set.alarm2 then vStart + ceilDiv ((c - set.start) * (100 - vStart)) (set.alarm2 - set.start)
  else 100

/-- The alarm state and delay after a reading (R57 to R59). -/
def alarmAfter (set : ChannelSetting) (c : Nat) (e : ChannelEval) : AlarmState × Option Nat :=
  match e.alarm with
  | .normal =>
    if set.alarm2 ≤ c then (.a2, none)
    else if set.alarm1 ≤ c then (if set.alarmDelay = 0 then (.a1, none) else (.a1Pending, some set.alarmDelay))
    else (.normal, none)
  | .a1Pending =>
    if set.alarm2 ≤ c then (.a2, none)
    else if set.alarm1 - set.hysteresis ≤ c then (.a1Pending, e.delay)
    else (.normal, none)
  | .a1 =>
    if set.alarm2 ≤ c then (.a2, none)
    else if set.alarm1 - set.hysteresis ≤ c then (.a1, none)
    else (.normal, none)
  | .a2 =>
    if set.alarm2 - set.hysteresis ≤ c then (.a2, none)
    else if set.alarm1 - set.hysteresis ≤ c then (.a1, none)
    else (.normal, none)

/-- A channel evaluation record after a reading, in the three steps of R54. -/
def ChannelEval.evaluate (set : ChannelSetting) (vStart c : Nat) (e : ChannelEval) : ChannelEval :=
  let flag := ventingAfter set c e.venting
  let alarm := alarmAfter set c e
  { alarm := alarm.1, delay := alarm.2, venting := flag, demand := channelDemand set vStart c flag }

/-- Whether a change of alarm state enters A1 or A2, which raises GAS-ALARM (R60). -/
def entersAlarm (old new : AlarmState) : Bool := (new == .a1 || new == .a2) && old != new

/-! ## The zone's GAS claim (R62 to R65) -/

/-- The parts of the state a channel has. -/
def State.channel (s : State) (c : Channel) : ChannelRec := s.scn.channels.get c

/-- The state with a channel record replaced. -/
def State.setChannel (s : State) (c : Channel) (r : ChannelRec) : State :=
  { s with scn := { s.scn with channels := s.scn.channels.set c r } }

/-- A channel's evaluation record. -/
def State.eval (s : State) (c : Channel) : ChannelEval := s.fev.channels.get c

/-- The state with a channel evaluation record replaced. -/
def State.setEval (s : State) (c : Channel) (e : ChannelEval) : State :=
  { s with fev := { s.fev with channels := s.fev.channels.set c e } }

/-- The state with a zone evaluation record replaced. -/
def State.setZoneEval (s : State) (z : Zone) (e : ZoneEval) : State :=
  { s with fev := { s.fev with zones := s.fev.zones.set z e } }

/-- Whether a channel is counted: ACTIVE with a primed ring (section 3.2). -/
def State.countedChannel (s : State) (c : Channel) : Bool :=
  (s.channel c).condition == .active && (s.channel c).ring.isSome

/-- Whether an ACTIVE channel of the zone is in A2 (R62, step 1). -/
def State.zoneInA2 (s : State) (z : Zone) : Bool :=
  (s.cfg.zoneChannels z).any fun c => s.countedChannel c && (s.eval c).alarm == .a2

/-- The zone's demand d (R62, step 2): the largest channel demand, with the fault demand when a channel is in FAULT. -/
def State.gasDemand (s : State) (z : Zone) : Nat :=
  max
    (largest (((s.cfg.zoneChannels z).filter s.countedChannel).map fun c => (s.eval c).demand))
    (if (s.cfg.zoneChannels z).any fun c => (s.channel c).condition == .fault then
      (s.cfg.channels.zone.get z).faultDemand
    else 0)

/-- The wanted claim compared with the claim held; a difference is sent to CLA and recorded (R63). -/
def State.sendGas (s : State) (z : Zone) (wanted : Option GasClaim) : State :=
  let e := s.fev.zones.get z
  if e.gas = wanted then s
  else
    let s' := s.setZoneEval z { e with gas := wanted }
    match wanted with
    | some g => s'.place z (gasClaim g)
    | none => s'.remove z .gas

/-- The state with a zone's run-on timer set. -/
def State.setRunOn (s : State) (z : Zone) (t : Option Nat) : State :=
  s.setZoneEval z { s.fev.zones.get z with runOn := t }

/-- The run-on claim: EXHAUST at level 3 with the zone's V_start (R64). -/
def State.runOnClaim (s : State) (z : Zone) : GasClaim :=
  { level := 3, demand := (s.cfg.channels.zone.get z).vStart }

/-- FEV recomputes a zone (R62 to R65). `mayStart` is false at the expiry of the run-on, which starts no new one. -/
def State.recomputeZone (s : State) (z : Zone) (mayStart : Bool := true) : State :=
  if s.zoneInA2 z then (s.setRunOn z none).sendGas z (some { level := 4, demand := 100 })
  else if 0 < s.gasDemand z then (s.setRunOn z none).sendGas z (some { level := 3, demand := s.gasDemand z })
  else
    match (s.fev.zones.get z).gas, (s.fev.zones.get z).runOn with
    | none, _ => s
    | some _, some _ => s.sendGas z (some (s.runOnClaim z))
    | some _, none =>
      if mayStart = true ∧ 0 < (s.cfg.channels.zone.get z).runOn then
        (s.setRunOn z (some (s.cfg.channels.zone.get z).runOn)).sendGas z (some (s.runOnClaim z))
      else s.sendGas z none

/-- FEV recomputes the zone of a channel, if it has one. -/
def State.recomputeChannelZone (s : State) (c : Channel) : State :=
  match (s.cfg.channels.channel.get c).zone with
  | some z => s.recomputeZone z
  | none => s

/-- The V_start of a channel's zone. -/
def State.channelVStart (s : State) (c : Channel) : Nat :=
  match (s.cfg.channels.channel.get c).zone with
  | some z => (s.cfg.channels.zone.get z).vStart
  | none => 0

/-- FEV evaluates a channel's reading, its average (R54), and raises GAS-ALARM when it enters an alarm (R60). -/
def State.evaluate (s : State) (c : Channel) : State :=
  let e := s.eval c
  let e' := e.evaluate (s.cfg.channels.channel.get c) (s.channelVStart c) (s.channel c).average
  (s.setEval c e').onPlant fun p => p.raiseIf (entersAlarm e.alarm e'.alarm) .gasAlarm

/-- FEV takes an entry of an ACTIVE channel: the evaluation, then the zone (R54). -/
def State.takeEntry (s : State) (c : Channel) : State := (s.evaluate c).recomputeChannelZone c

/-- FEV takes a change of condition to FAULT, INHIBITED or UNUSED: the record reset, then the zone (R61). -/
def State.stopEvaluation (s : State) (c : Channel) : State := (s.setEval c .blank).recomputeChannelZone c

/-- The channel that the scan converts next: the lowest-numbered one beyond those it has passed that is not UNUSED; none
when the scan has ended (R32). -/
def State.nextInScan (s : State) : Option Channel :=
  Channel.all.find? fun c => decide (s.scn.scanned < c.number) && (s.channel c).condition != .unused

/-- The scan has passed a channel (R32). -/
def State.scanTo (s : State) (c : Channel) : State := { s with scn := { s.scn with scanned := c.number } }

/-- One sample of a channel and what SCN hands on of it (R34 to R40, R49, R51). -/
def State.sample (s : State) (c : Channel) (q : Nat) : State :=
  let old := s.channel c
  let (new, effect) := old.sample (s.cfg.channels.channel.get c).fullScale q
  let s' := s.setChannel c new
  match effect with
  | .nothing => s'
  | .entered => if new.condition = .active then s'.takeEntry c else s'
  | .faultConfirmed => (if new.condition = .fault then s'.stopEvaluation c else s').raise .channelFault
  | .faultEnded => if new.condition = .active then (s'.recomputeChannelZone c).takeEntry c else s'

/-- One conversion of a channel (R32): a sample of the channel that the scan has come to, which then passes it. SCN makes
no conversion of another channel, nor of any once the scan has ended, so a code for one is no sample (log entry 26). -/
def State.convert (s : State) (c : Channel) (q : Nat) : State :=
  if s.nextInScan = some c then (s.scanTo c).sample c q else s

/-! ## The inhibit list (R43 to R48) -/

/-- A list with an entry at the place its time gives it, behind entries with the same time (R43). -/
def enterInhibit (e : Inhibit) : List Inhibit → List Inhibit
  | [] => [e]
  | x :: xs => if e.remaining < x.remaining then e :: x :: xs else x :: enterInhibit e xs

/-- A list without a channel's entry. -/
def withoutChannel (c : Channel) (l : List Inhibit) : List Inhibit := l.filter fun e => e.channel != c

/-- Whether a channel is listed. -/
def State.listed (s : State) (c : Channel) : Bool := s.scn.inhibits.any fun e => e.channel == c

/-- The state with the inhibit list replaced. -/
def State.setInhibits (s : State) (l : List Inhibit) : State := { s with scn := { s.scn with inhibits := l } }

/-- The duration an INHIBIT request gives, and whether it was clamped (R44, step 3). -/
def inhibitTime (deflt t : Nat) : Nat × Bool :=
  if t = 0 then (deflt, false)
  else if t < 60 then (60, true)
  else if 3600 < t then (3600, true)
  else (t, false)

/-- A channel's inhibit ends (R48): FAULT when a fault is held, otherwise ACTIVE, evaluated at once from its average
when its ring is primed (R61). -/
def State.endInhibit (s : State) (c : Channel) : State :=
  let r := s.channel c
  if r.faultHeld then (s.setChannel c { r with condition := .fault, faultHeld := false }).stopEvaluation c
  else
    let s' := s.setChannel c { r with condition := .active }
    if r.ring.isSome then s'.takeEntry c else s'.recomputeChannelZone c

/-- A channel enters the inhibit list (R44, step 6). -/
def State.startInhibit (s : State) (c : Channel) (d : Nat) : State :=
  let r := s.channel c
  let s' := s.setInhibits (enterInhibit { channel := c, remaining := d } s.scn.inhibits)
  (s'.setChannel c { r with condition := .inhibited, faultHeld := r.condition == .fault }).stopEvaluation c

/-- A listed channel's entry renewed (R45). -/
def State.renewInhibit (s : State) (c : Channel) (d : Nat) : State :=
  s.setInhibits (enterInhibit { channel := c, remaining := d } (withoutChannel c s.scn.inhibits))

/-- An entry whose time has reached 0 leaves the list and its channel's inhibit ends (R46). -/
def State.expireInhibit (s : State) (c : Channel) : State :=
  if s.scn.inhibits.any fun e => e.channel == c && e.remaining == 0 then
    (s.setInhibits (withoutChannel c s.scn.inhibits)).endInhibit c
  else s

/-! ## A CHANNELS block applied (R50, R67) -/

/-- Whether a channel's zone, kind or full scale differs between two blocks. -/
def channelMoved (old new : ChannelSetting) : Bool :=
  old.zone != new.zone || old.kind != new.kind || old.fullScale != new.fullScale

/-- A channel record under new settings (R50). -/
def ChannelRec.resettle (old new : ChannelSetting) (isListed : Bool) (r : ChannelRec) : ChannelRec :=
  if channelMoved old new = false then r
  else
    match old.zone, new.zone with
    | none, none => r
    | _, none => .blank
    | none, some _ => { r with condition := .active, ring := none, average := 0, outRun := 0, inRun := 0 }
    | some _, some _ =>
      { r with
        condition := if isListed then .inhibited else .active
        ring := none, average := 0, outRun := 0, inRun := 0, faultHeld := false }

/-- SCN takes a CHANNELS block (R50): the records, and the entries of unassigned channels out of the list. -/
def State.scnChannels (s : State) (old : ChannelsBlock) : State :=
  let new := s.cfg.channels
  { s with
    scn :=
      { s.scn with
        channels := .build fun c =>
          (s.channel c).resettle (old.channel.get c) (new.channel.get c) (s.listed c)
        inhibits := s.scn.inhibits.filter fun e => (new.channel.get e.channel).zone.isSome } }

/-- Whether any of S, A1, A2, H and T_A1 differs. -/
def thresholdsChanged (old new : ChannelSetting) : Bool :=
  old.start != new.start || old.alarm1 != new.alarm1 || old.alarm2 != new.alarm2 ||
    old.hysteresis != new.hysteresis || old.alarmDelay != new.alarmDelay

/-- A delay that was running before the application, and still runs after the evaluation, under the new T_A1: it
continues from its start, or expires at once (R67). -/
def ChannelEval.redelay (e : ChannelEval) (old new : Nat) (before : ChannelEval) : ChannelEval :=
  match before.alarm, e.alarm, before.delay with
  | .a1Pending, .a1Pending, some left =>
    match rebase old new left with
    | some left' => { e with delay := some left' }
    | none => { e with alarm := .a1, delay := none }
  | _, _, _ => e

/-- FEV takes one channel of a CHANNELS block (R67). -/
def State.fevChannel (old : ChannelsBlock) (s : State) (c : Channel) : State :=
  let was := old.channel.get c
  let now := s.cfg.channels.channel.get c
  if channelMoved was now then s.setEval c .blank
  else if thresholdsChanged was now && s.countedChannel c then
    let before := s.eval c
    let e := (before.evaluate now (s.channelVStart c) (s.channel c).average).redelay was.alarmDelay now.alarmDelay before
    (s.setEval c e).onPlant fun p => p.raiseIf (entersAlarm before.alarm e.alarm) .gasAlarm
  else s

/-- FEV takes one zone of a CHANNELS block (R67): a running run-on continues from its start under the new T_RO, or has
run out, and the zone is recomputed. -/
def State.fevZone (old : ChannelsBlock) (s : State) (z : Zone) : State :=
  match (s.fev.zones.get z).runOn with
  | none => s.recomputeZone z
  | some left =>
    match rebase (old.zone.get z).runOn (s.cfg.channels.zone.get z).runOn left with
    | some left' => (s.setRunOn z (some left')).recomputeZone z
    | none => (s.setRunOn z none).recomputeZone z (mayStart := false)

/-- A CHANNELS block applied to SCN, then to FEV, channels first (R50, R67). -/
def State.applyChannels (s : State) (old : ChannelsBlock) : State :=
  Zone.all.foldl (State.fevZone old) (Channel.all.foldl (State.fevChannel old) (s.scnChannels old))

end Sys2Proof.Machine
end

