-- ==== Sys2Proof/Machine/Schedule.lean ====
section
/-! DEFINITION. The depot clock and the pull-out windows (chapter 10). -/

namespace Sys2Proof.Machine

/-- The day before a day of 1..7 (R172). -/
def dayBefore (d : Nat) : Nat := if d = 1 then 7 else d - 1

/-- Whether a window is open at day `d` and minute `m` (R172). -/
def Window.openAt (w : Window) (d m : Nat) : Bool :=
  if w.start = w.stop then false
  else if w.start < w.stop then dayMaskHas w.days d && decide (w.start ≤ m ∧ m < w.stop)
  else (dayMaskHas w.days d && decide (w.start ≤ m)) || (dayMaskHas w.days (dayBefore d) && decide (m < w.stop))

/-- The numbers of the windows now open; none on an unset clock (R169, R174). -/
def openWindows (windows : PerWindow Window) (clock : Dck) : List WindowNo :=
  if clock.isSet then WindowNo.all.filter fun n => (windows.get n).openAt clock.day clock.minute else []

/-- The SCHEDULE demand a zone is to have: the largest among the open windows that cover it, or none (R173). -/
def wantedSchedule (windows : PerWindow Window) (clock : Dck) (z : Zone) : Option Nat :=
  match (openWindows windows clock).filter fun n => maskHas (windows.get n).zones z with
  | [] => none
  | ns => some (largest (ns.map fun n => (windows.get n).demand))

/-- The state with the SCHEDULE claim held for a zone recorded. -/
def State.holdSchedule (s : State) (z : Zone) (d : Option Nat) : State :=
  { s with dck := { s.dck with held := s.dck.held.set z d } }

/-- One zone's wanted SCHEDULE claim compared with the one held; a difference is sent to CLA (R173). -/
def State.alignSchedule (s : State) (z : Zone) : State :=
  let wanted := wantedSchedule s.cfg.windows s.dck z
  if s.dck.held.get z = wanted then s
  else
    match wanted with
    | some d => (s.holdSchedule z wanted).place z (scheduleClaim d)
    | none => (s.holdSchedule z none).remove z .schedule

/-- An evaluation of the windows, zone by zone in ascending number (R173). -/
def State.evaluateWindows (s : State) : State := Zone.all.foldl State.alignSchedule s

/-- The clock advanced by one minute, with the rollover of minute and day, at second 0 (R169). -/
def Dck.nextMinute (c : Dck) : Dck :=
  if c.minute = 1439 then { c with second := 0, minute := 0, day := if c.day = 7 then 1 else c.day + 1 }
  else { c with second := 0, minute := c.minute + 1 }

/-- The windows evaluated if normal operation is under way: during LOADING no evaluation is made (R169, R174). -/
def State.evaluateInService (s : State) : State := if s.mode = .normal then s.evaluateWindows else s

/-- A minute boundary (R169): nothing unless the clock is set and its second is 59. -/
def State.minuteBoundary (s : State) : State :=
  if s.dck.isSet = true ∧ s.dck.second = 59 then ({ s with dck := s.dck.nextMinute }).evaluateInService else s

/-- One second of a set clock counted (R169); at second 59 the next second is a minute boundary. -/
def State.clockSecond (s : State) : State :=
  if s.dck.isSet = true then
    if s.dck.second = 59 then s.minuteBoundary
    else { s with dck := { s.dck with second := s.dck.second + 1 } }
  else s

end Sys2Proof.Machine
end

