-- ==== Sys2Proof/Machine/FireSide.lean ====
section
/-! DEFINITION. What the fire interface and the panel interface do with the claim table: the contact fallback (R80, R81),
the PANEL claims (R94, R95), the trouble summary (R85) and the lamps (R97 to R99). -/

namespace Sys2Proof.Machine

/-! ## The contact fallback (R80, R81) -/

/-- The fallback applies while the contact is ACTIVE and the link is DOWN or LOST (R80). -/
def State.fallback (s : State) : Bool := s.fif.contact && s.fif.link != .up

/-- A FIRE-CONTACT claim placed in each zone of the contact-exhaust set, in ascending number (R81). -/
def State.placeContact (s : State) : State :=
  (maskZones s.cfg.zones.contactExhaust).foldl (fun s z => s.place z fireContactClaim) s

/-- Whether a zone holds a FIRE-CONTACT claim. -/
def State.holdsContact (s : State) (z : Zone) : Bool :=
  (claimOf .fireContact (s.plant.zones.get z).claims).isSome

/-- Every FIRE-CONTACT claim held removed, in ascending zone number (R74, R81). -/
def State.removeContact (s : State) : State :=
  (Zone.all.filter s.holdsContact).foldl (fun s z => s.remove z .fireContact) s

/-! ## PANEL claims (R94, R95) -/

/-- The claim a switch position asks for; none at AUTO (R94). -/
def claimAsked : SwitchPosition → Option ClaimKind
  | .auto => none
  | .exhaust => some (.exhaust 100)
  | .off => some .shut

/-- The state with the PANEL claim held for a zone recorded. -/
def State.holdPanel (s : State) (z : Zone) (k : Option ClaimKind) : State :=
  { s with pif := { s.pif with held := s.pif.held.set z k } }

/-- PIF sends the placement a zone's position asks for; a zone at AUTO is passed over (R94). -/
def State.placePanel (s : State) (z : Zone) : State :=
  match claimAsked (s.pif.position.get z) with
  | some k => (s.holdPanel z (some k)).place z (panelClaim k)
  | none => s

/-- PIF removes a zone's PANEL claim, if one is held (R94, R95). -/
def State.removePanel (s : State) (z : Zone) : State :=
  if (s.pif.held.get z).isSome then (s.holdPanel z none).remove z .panel else s

/-- The panel-in-control key turned (R94). -/
def State.turnPanelKey (s : State) (on : Bool) : State :=
  if s.pif.panelKey = on then s
  else
    let s' := { s with pif := { s.pif with panelKey := on } }
    if on then Zone.all.foldl State.placePanel s' else Zone.all.foldl State.removePanel s'

/-- A valid position taken on a zone switch (R92, R93, R95): a switch fault ends, and a change of position acts on the
PANEL claim while the key is ON. -/
def State.takePosition (s : State) (z : Zone) (position : SwitchPosition) : State :=
  let changed := s.pif.position.get z != position
  let s' :=
    { s with
      pif :=
        { s.pif with
          position := s.pif.position.set z position, switchFault := s.pif.switchFault.set z false } }
  if changed && s.pif.panelKey then
    match position with
    | .auto => s'.removePanel z
    | _ => s'.placePanel z
  else s'

/-- Both lines of a zone switch active: the switch fault is set and the position held (R93). -/
def State.faultSwitch (s : State) (z : Zone) : State :=
  { s with pif := { s.pif with switchFault := s.pif.switchFault.set z true } }

/-! ## The trouble summary, the contact and the lamps (R85, R86, R97 to R99, R183) -/

/-- The trouble conditions that hold at present, each as its owner reports it (R85). -/
def State.troubleNow (s : State) : Trouble :=
  { fLink := s.fif.link != .up
    channel := Channel.all.any fun c => (s.channel c).faulted
    damper := Zone.all.any fun z => (s.plant.dampers.get z).state == .fault
    fan := Fan.all.any fun f => (s.plant.fan f).state == .tripped
    groupUnserved := Group.all.any fun g => (s.plant.gal.groups.get g).unserved
    fireBudget := s.plant.gal.fireShort
    settings := s.sst.defaulted.any
    panelSwitch := Zone.all.any s.pif.switchFault.get }

/-- A zone's lamps (R97). -/
def State.zoneLampsNow (s : State) (z : Zone) : Config.ZoneLamps :=
  let d := (s.plant.dampers.get z).state
  { opened := d == .opened, shut := d == .closed,
    fault := d == .fault || (s.plant.zones.get z).status == .failed }

/-- A group's lamps (R98). -/
def State.groupLampsNow (s : State) (g : Group) : Config.GroupLamps :=
  { run := hasRunning s.cfg s.plant g
    trip := (s.cfg.groupFans g).any fun f =>
      (s.plant.fan f).state == .tripped || (s.plant.fan f).state == .locked }

/-- The outputs that follow from the state at the end of a handling. While the lamp test is HELD every lamp is lit
(R99); the contact is open while the summary holds any condition (R86); the attention line is asserted while any event
is pending (R183). -/
def State.refreshPins (s : State) : State :=
  { s with
    pins :=
      { trouble := s.troubleNow
        contactOpen := s.troubleNow.any
        zoneLamps := .build fun z => if s.pif.lampTest then ⟨true, true, true⟩ else s.zoneLampsNow z
        groupLamps := .build fun g => if s.pif.lampTest then ⟨true, true⟩ else s.groupLampsNow g
        attention := s.plant.events.any } }

end Sys2Proof.Machine
end

