-- ==== Sys2Proof/Machine/Links.lean ====
section
/-! DEFINITION. The two serial links below the level of requests: replies (R192, R193), the receivers (R176, R192),
supervision and its expiry (R75, R178), and what BLI itself holds for the controller: BMS claims and the budget cap
(R180, R181). -/

namespace Sys2Proof.Machine

/-! ## Replies (R192, R193) -/

/-- The results of B-link requests (00_scope.md, Results and indications). -/
inductive Result where
  | done
  | busy
  | range
  | barred
  | state
  | limit
  | unknown
  | latched
  deriving DecidableEq, Repr

/-- The code of a result in bits 0..6 of the result byte; `barred` is PROTECTED (R193). -/
def Result.code : Result → Nat
  | .done => 0
  | .busy => 1
  | .range => 2
  | .barred => 3
  | .state => 4
  | .limit => 5
  | .unknown => 6
  | .latched => 7

/-- What a request is answered with: its result, the CLAMPED indication, and the data of a DONE reply. -/
structure Answer where
  result : Result
  clamped : Bool
  data : List Byte
  deriving DecidableEq, Repr

/-- DONE with data. -/
def Answer.doneWith (data : List Byte) : Answer := { result := .done, clamped := false, data := data }

/-- DONE. -/
def Answer.done : Answer := .doneWith []

/-- DONE, with CLAMPED when `clamped` holds. -/
def Answer.doneClamped (clamped : Bool) : Answer := { result := .done, clamped := clamped, data := [] }

/-- A result other than DONE. -/
def Answer.refused (r : Result) : Answer := { result := r, clamped := false, data := [] }

/-- The payload of a reply: the result byte, and the data when the result is DONE (R193). -/
def Answer.payload (a : Answer) : List Byte :=
  byte (a.result.code + (if a.clamped then 128 else 0)) :: (if a.result = .done then a.data else [])

/-- The kind of a reply: the request's plus 128, or a request kind of 128..255 itself (R192). -/
def replyKind (kind : Byte) : Byte := if kind.toNat < 128 then byte (kind.toNat + 128) else kind

/-- The reply to a request of kind `kind` at a responder address. -/
def replyFrame (address : Nat) (kind : Byte) (a : Answer) : Frame :=
  { address := byte address, kind := replyKind kind, payload := a.payload }

/-- A reply put on the B-link. -/
def State.sendB (s : State) (f : Frame) : State := { s with wire := { s.wire with bLink := f.bytes :: s.wire.bLink } }

/-- A reply put on the F-link, at address 0 (R192). -/
def State.sendF (s : State) (kind : Byte) (payload : List Byte) : State :=
  let f : Frame := { address := 0#8, kind := kind, payload := payload }
  { s with wire := { s.wire with fLink := f.bytes :: s.wire.fLink } }

/-! ## The receivers (R176, R192) -/

/-- LINK-ERROR set, but for LOADING, when R176 sets no event (R185). -/
def State.linkError (s : State) : State := if s.mode = .normal then s.raise .linkError else s

/-- Whether a link's receiver has a frame in progress. -/
def State.assembling (s : State) : Link → Bool
  | .bLink => s.bli.assembling
  | .fLink => s.fif.assembling

/-- The state with a link's receiver in a frame, or waiting for a lead byte. -/
def State.setAssembling (s : State) (l : Link) (b : Bool) : State :=
  match l with
  | .bLink => { s with bli := { s.bli with assembling := b } }
  | .fLink => { s with fif := { s.fif with assembling := b } }

/-- A framing error in a frame in progress: its bytes are discarded and the receiver waits for the next lead byte
(R192); on the B-link LINK-ERROR is set (R176), on the F-link nothing more happens (R71). -/
def State.breakFrame (s : State) (l : Link) : State :=
  if s.assembling l then
    match l with
    | .bLink => (s.setAssembling .bLink false).linkError
    | .fLink => s.setAssembling .fLink false
  else s

/-- A lead byte: it starts a frame when none is in progress (R192). -/
def State.startFrame (s : State) (l : Link) : State := if s.assembling l then s else s.setAssembling l true

/-- The receive queue replaced. -/
def State.setQueue (s : State) (q : List Frame) : State := { s with bli := { s.bli with queue := q } }

/-- One more RESTART frame counted as handled (log entry 2). -/
def State.countRestart (s : State) : State := { s with wire := { s.wire with restarts := s.wire.restarts + 1 } }

/-- Steps 3 and 4 of R176, for a frame addressed to the part: the overrun latch, then the queue. -/
def State.enqueueFrame (s : State) (f : Frame) : State :=
  let room := decide (s.bli.queue.length < Config.receiveQueueLength)
  if s.bli.latch then
    if f.kind = Request.clearLink.kind ∧ room = true then s.setQueue (s.bli.queue ++ [f]) else s
  else if room then s.setQueue (s.bli.queue ++ [f])
  else ({ s with bli := { s.bli with queue := [], latch := true } }).linkError

/-- A frame complete on the B-link, given by the bytes after its lead byte (R176). A strap reading of 0 gives no
address: every frame is then addressed elsewhere (R175). -/
def State.completeB (s : State) (bytes : List Byte) : State :=
  let s' := s.setAssembling .bLink false
  match parseFrame bytes with
  | none => s'.linkError
  | some f => if s.bli.address ≠ 0 ∧ f.address.toNat = s.bli.address then s'.enqueueFrame f else s'

/-- A frame complete on the F-link, given by the bytes after its lead byte: a zone-state frame that passes the
envelope and check tests takes the receive slot, any other is discarded, and during LOADING every one is (R71, R72,
R88). -/
def State.completeF (s : State) (bytes : List Byte) : State :=
  let s' := s.setAssembling .fLink false
  if s.mode = .normal then
    match (parseFrame bytes).bind ZoneStateFrame.ofFrame? with
    | some z => { s' with fif := { s'.fif with slot := some z } }
    | none => s'
  else s'

/-- The bytes of a frame after its lead byte; none for bytes that no lead byte begins, which are no frame (R192). -/
def afterLead : List Byte → Option (List Byte)
  | b :: bs => if b = leadOctet then some bs else none
  | [] => none

/-! ## What BLI holds for the controller (R180, R181) -/

/-- The state with the BMS claim held for a zone recorded. -/
def State.holdBms (s : State) (z : Zone) (k : Option ClaimKind) : State :=
  { s with bli := { s.bli with held := s.bli.held.set z k } }

/-- BLI sends a BMS placement and records it as held (R180). -/
def State.claimBms (s : State) (z : Zone) (k : ClaimKind) : State := (s.holdBms z (some k)).place z (bmsClaim k)

/-- BLI removes a zone's BMS claim, if one is held (R180). -/
def State.releaseBms (s : State) (z : Zone) : State :=
  if (s.bli.held.get z).isSome then (s.holdBms z none).remove z .bms else s

/-- BLI records a budget cap, or none, and hands it to GAL (R181). -/
def State.setCap (s : State) (cap : Option Nat) : State :=
  ({ s with bli := { s.bli with cap := cap } }).onPlant (budgetChange s.cfg cap)

/-- An OPEN edit session discarded; a COMMITTING session is untouched (R191). -/
def State.abandonOpen (s : State) : State :=
  match s.sst.session with
  | .opened _ _ => { s with sst := { s.sst with session := .none } }
  | _ => s

/-! ## Supervision (R75, R178) -/

/-- The expiry of the F-link supervision timeout: LOST, LINK-TROUBLE, and the contact claims if the contact is ACTIVE
(R75). -/
def State.loseFLink (s : State) : State :=
  let s' := ({ s with fif := { s.fif with link := .lost, timer := none } }).raise .linkTrouble
  if s'.fif.contact then s'.placeContact else s'

/-- The expiry of the B-link supervision timeout: LOST, the BMS claims removed in ascending zone number, the cap
removed, an open edit session abandoned, LINK-TROUBLE (R178). -/
def State.loseBLink (s : State) : State :=
  let s1 := { s with bli := { s.bli with link := .lost, timer := none } }
  let s2 := Zone.all.foldl State.releaseBms s1
  let s3 := if s2.bli.cap.isSome then s2.setCap none else s2
  s3.abandonOpen.raise .linkTrouble

/-- Step 2 of R177: the link enters UP or stays UP, and supervision restarts. -/
def State.hearB (s : State) : State :=
  { s with bli := { s.bli with link := .up, timer := some s.cfg.timers.bLink } }

/-! ## The smoke-control frame and its reply (R72 to R74, R83, R84) -/

/-- The code of a smoke-control status (section 13.2). -/
def SmokeStatus.code : SmokeStatus → Nat
  | .none => 0
  | .pending => 1
  | .confirmedExhaust => 2
  | .confirmedShut => 3
  | .failed => 4

/-- The code of the supply state (section 13.2). -/
def SupplyState.code : SupplyState → Nat
  | .mains => 0
  | .generator => 1
  | .transfer => 2

/-- The entry bytes of the reply, in list order: the first `limit` entries are ACTIVE (R13, section 13.2). -/
def entryBytes : Nat → List FireEntry → List Byte
  | _, [] => []
  | 0, e :: es => byte e.zone.number :: entryBytes 0 es
  | limit + 1, e :: es => byte (e.zone.number + 128) :: entryBytes limit es

/-- The first byte of the reply: tag, REPEAT, panel-in-control key, supply state (section 13.2). -/
def State.replyFlags (s : State) (tag again : Bool) : Byte :=
  byte (bitsOf [tag, again, s.pif.panelKey] + 16 * s.plant.spm.state.code)

/-- The payload of the smoke-control reply (R83, section 13.2). -/
def State.smokeReply (s : State) (tag again : Bool) : List Byte :=
  [s.replyFlags tag again] ++ Zone.all.map (fun z => byte (s.plant.zones.get z).status.code) ++
    [byte s.troubleNow.code, byte s.plant.fireOrder.length] ++
    entryBytes s.cfg.zones.originLimit s.plant.fireOrder

/-- The smoke-control reply sent, kind 129 (R83). -/
def State.answerF (s : State) (tag again : Bool) : State := s.sendF 129#8 (s.smokeReply tag again)

/-- The link brought UP by an accepted frame: from DOWN or LOST the FIRE-CONTACT claims are removed (R74). -/
def State.raiseFLink (s : State) : State :=
  if s.fif.link = .up then s
  else ({ s with fif := { s.fif with link := .up } }).removeContact

/-- An accepted zone-state frame, in the five steps of R73. -/
def State.acceptFrame (s : State) (f : ZoneStateFrame) : State :=
  let s1 :=
    { s with
      fif := { s.fif with lastTag := some f.tag, lastMap := f.map, timer := some s.cfg.timers.fLink } }
  let s2 := s1.onPlant (fireUpdate s1.cfg f.map f.reset)
  s2.raiseFLink.answerF f.tag false

/-- The frame in the receive slot taken and handled whole: a repeat is answered with REPEAT and changes nothing, any
other is accepted (R72). -/
def State.takeSlot (s : State) : State :=
  match s.fif.slot with
  | none => s
  | some f =>
    let s' := { s with fif := { s.fif with slot := none } }
    if s.fif.lastTag = some f.tag then s'.answerF f.tag true else s'.acceptFrame f

/-- A change of the filtered fire contact (R79, R81); none when it is as before. -/
def State.changeContact (s : State) (active : Bool) : State :=
  if s.fif.contact = active then s
  else
    let s' := ({ s with fif := { s.fif with contact := active } }).raise .fireChange
    if active then if s'.fif.link = .up then s' else s'.placeContact
    else s'.removeContact

end Sys2Proof.Machine
end

