-- ==== Sys2Proof/Machine/Store.lean ====
section
/-! DEFINITION. The settings store (chapter 12): loading, the edit session, the commit in flight, the application of a
block to its owners, and the end of every handling in normal operation. -/

namespace Sys2Proof.Machine

/-! ## Timer expiries of a fan (R146, R147, R149) -/

/-- The duration of a fan's state timer in a state (section 8.1). -/
def FanState.duration (t : TimersBlock) : FanState → Nat
  | .starting => t.tRun
  | .proving => t.tProve
  | .stopping => t.coast
  | _ => 0

/-- The effect of the expiry of a fan's state timer, by its state: failures in STARTING and PROVING, OFF from STOPPING
(R146, R147, R149). -/
def timeoutFan (p : Plant) (f : Fan) : Reported :=
  match (p.fan f).state with
  | .starting => p.failFan f .runTimeout
  | .proving => p.failFan f .airflowTimeout
  | .stopping => (p.setFan f ((p.fan f).release .off), [])
  | _ => (p, [])

/-- A fan whose state timer has reached 0 is taken through the expiry and what follows it, with a queue test when it
leaves STARTING or PROVING (R145); any other is left alone. -/
def expireFan (cfg : Settings) (p : Plant) (f : Fan) : Plant :=
  if (p.fan f).timer = some 0 then
    if (p.fan f).state.inService then fanEvent cfg (timeoutFan p f) else report cfg (timeoutFan p f)
  else p

/-! ## The application of a TIMERS block (R77, R114, R159, R167, R178) -/

/-- DMC takes a new travel time, damper by damper (R114). -/
def retimeDampers (cfg : Settings) (old new : Nat) (p : Plant) : Plant :=
  Zone.all.foldl (fun q z => damperEvent cfg z (Damper.retime old new) q) p

/-- A fan record's state timer under new durations; a duration that has run already leaves it at 0 (R159). -/
def FanRec.retime (old new : TimersBlock) (r : FanRec) : FanRec :=
  match r.timer with
  | none => r
  | some left => { r with timer := some ((rebase (r.state.duration old) (r.state.duration new) left).getD 0) }

/-- FSQ takes new durations: every running timer is rebased, then those that have run out expire in ascending fan
number, and an expired start spacing ends with a queue test (R159). -/
def retimeFans (cfg : Settings) (old new : TimersBlock) (p : Plant) : Plant :=
  let due := Fan.all.filter fun f => ((p.fan f).retime old new).timer == some 0
  let spacing := p.fsq.spacing.bind (rebase old.spacing new.spacing)
  let q := { p with fsq := { p.fsq with fans := .build fun f => (p.fan f).retime old new, spacing := spacing } }
  let r := due.foldl (expireFan cfg) q
  if p.fsq.spacing.isSome && spacing.isNone then testQueue cfg r else r

/-- SPM takes a new settle delay (R167). -/
def retimeSettle (cfg : Settings) (cap : Option Nat) (old new : Nat) (p : Plant) : Plant :=
  match p.spm.settle with
  | none => p
  | some left =>
    match rebase old new left with
    | some left' => { p with spm := { p.spm with settle := some left' } }
    | none => endSettle cfg cap p

/-- FIF takes a new supervision timeout (R77). -/
def State.retimeFLink (s : State) (old new : Nat) : State :=
  match s.fif.timer with
  | none => s
  | some left =>
    match rebase old new left with
    | some left' => { s with fif := { s.fif with timer := some left' } }
    | none => s.loseFLink

/-- BLI takes a new supervision timeout (R178). -/
def State.retimeBLink (s : State) (old new : Nat) : State :=
  match s.bli.timer with
  | none => s
  | some left =>
    match rebase old new left with
    | some left' => { s with bli := { s.bli with timer := some left' } }
    | none => s.loseBLink

/-- A TIMERS block applied to DMC, FSQ, SPM, FIF and BLI, in this order; SCN's listed times stay as they are (R50). -/
def State.applyTimers (s : State) (old : TimersBlock) : State :=
  let new := s.cfg.timers
  let s1 := s.onPlant fun p =>
    retimeSettle s.cfg s.bli.cap old.settle new.settle
      (retimeFans s.cfg old new (retimeDampers s.cfg old.travel new.travel p))
  (s1.retimeFLink old.fLink new.fLink).retimeBLink old.bLink new.bLink

/-! ## The application of the other blocks (R24, R82, R98, R131) -/

/-- A ZONES block applied: CLA's statuses take the new groups (R27) and nothing else of CLA is recomputed (R24), FIF
places the contact claims of the new set if the fallback applies (R82), GAL runs a pass (R131). -/
def State.applyZones (s : State) : State :=
  let s1 := s.onPlant (refreshStatus s.cfg)
  let s2 := if s1.fallback then s1.placeContact else s1
  s2.onPlant (runPass s.cfg)

/-- A FANS block applied: GAL rebuilds the duty orders and runs a pass, which FSQ handles under the new powers, CLA
takes the new assignment (R117, R131, R159, R27). -/
def State.applyFans (s : State) : State :=
  s.onPlant fun p =>
    refreshStatus s.cfg (runPass s.cfg (Group.all.foldl
      (fun q g => q.setDuty g (rebuildDuty s.cfg g (q.gal.groups.get g).duty)) p))

/-- A block, already in force, handed to its owners (section 12.1); `old` is what was in force before. -/
def State.applyToOwners (s : State) (old : Settings) : Block → State
  | .zones => s.applyZones
  | .fans => s.applyFans
  | .channels => s.applyChannels old.channels
  | .timers => s.applyTimers old.timers
  | .budget => s.onPlant (budgetChange s.cfg s.bli.cap)
  | .windows => s.evaluateWindows

/-! ## The commit in flight (R189, R190) -/

/-- Whether a fan is OFF, TRIPPED or LOCKED. -/
def FanState.atRest : FanState → Bool
  | .off => true
  | .tripped => true
  | .locked => true
  | _ => false

/-- The state condition of a ZONES or FANS commit: no level-5, -6 or -7 claim, and every fan OFF, TRIPPED or LOCKED
(R189). -/
def State.commitCondition (s : State) : Bool :=
  !s.plant.fireSide && Fan.all.all fun f => (s.plant.fan f).state.atRest

/-- The values in force replaced by a buffer. -/
def State.putInForce (s : State) (v : BlockValue) : State :=
  { s with sst := { s.sst with inForce := s.sst.inForce.put v } }

/-- A block applied, in one handling: in force, handed to its owners, no longer defaulted, SETTINGS-DONE set, the
session ended (R190). -/
def State.applyBlock (s : State) (v : BlockValue) : State :=
  let s1 := (s.putInForce v).applyToOwners s.sst.inForce v.block
  ({ s1 with
      sst := { s1.sst with defaulted := s1.sst.defaulted.set v.block false, session := .none } }).raise .settingsDone

/-- The block of a commit whose write has completed is applied as soon as its condition holds (R190). -/
def State.applyIfReady (s : State) : State :=
  match s.sst.session with
  | .committing v true => if !v.block.protected? || s.commitCondition then s.applyBlock v else s
  | _ => s

/-- The end of every handling in normal operation: a waiting block is applied if its condition now holds, and the
outputs follow the state. -/
def State.finish (s : State) : State := s.applyIfReady.refreshPins

/-- The end of a handling: `finish` in normal operation, nothing otherwise. -/
def State.settle (s : State) : State := if s.mode = .normal then s.finish else s

/-- The write of a commit completes: the block is stored and its marker is valid (R190). -/
def State.completeWrite (s : State) : State :=
  match s.sst.session with
  | .committing v false =>
    { s with
      sst :=
        { s.sst with
          stored := s.sst.stored.put v, valid := s.sst.valid.set v.block true, session := .committing v true } }
  | _ => s

/-- Whether a commit is in flight (R190). -/
def State.inFlight (s : State) : Bool :=
  match s.sst.session with
  | .committing _ _ => true
  | _ => false

/-- The session record replaced. -/
def State.setSession (s : State) (x : Session) : State := { s with sst := { s.sst with session := x } }

/-- A commit started: COMMITTING, with the block's marker clear (R190). -/
def State.startCommit (s : State) (v : BlockValue) : State :=
  { s with sst := { s.sst with valid := s.sst.valid.set v.block false, session := .committing v false } }

/-! ## The edit requests (R188, R189) -/

/-- OPEN-EDIT b (R188). -/
def State.openEdit (s : State) (b : Byte) : State × Answer :=
  match s.sst.session with
  | .none =>
    match Block.ofNumber? b.toNat with
    | none => (s, .refused .range)
    | some k =>
      if k.protected? && !s.pif.commissioningKey then (s, .refused .barred)
      else (s.setSession (.opened (s.sst.inForce.copy k) false), .done)
  | _ => (s, .refused .busy)

/-- WRITE-ITEM i v (R188). -/
def State.writeItem (s : State) (item value : Word) : State × Answer :=
  match s.sst.session with
  | .none => (s, .refused .state)
  | .committing _ _ => (s, .refused .busy)
  | .opened _ true => (s, .refused .latched)
  | .opened v false =>
    match v.write item.toNat value.toNat with
    | some v' => (s.setSession (.opened v' false), .done)
    | none => (s.setSession (.opened v true), .refused .range)

/-- COMMIT-EDIT (R189). -/
def State.commitEdit (s : State) : State × Answer :=
  match s.sst.session with
  | .none => (s, .refused .state)
  | .committing _ _ => (s, .refused .busy)
  | .opened _ true => (s, .refused .latched)
  | .opened v false =>
    if !v.consistent then (s.setSession (.opened v true), .refused .range)
    else if v.block.protected? && !s.commitCondition then (s, .refused .state)
    else (s.startCommit v, .done)

/-- ABANDON-EDIT (R188). -/
def State.abandonEdit (s : State) : State × Answer :=
  match s.sst.session with
  | .none => (s, .refused .state)
  | .committing _ _ => (s, .refused .busy)
  | .opened _ _ => (s.setSession .none, .done)

/-- READ-SETTING b i: the value in force and whether the block is defaulted (R186, section 13.3). -/
def State.readSetting (s : State) (b : Byte) (item : Word) : Answer :=
  match (Block.ofNumber? b.toNat).bind fun k => ((s.sst.inForce.copy k).item item.toNat).map fun v => (k, v) with
  | some (k, v) => .doneWith (word2 v ++ [flagByte (s.sst.defaulted.get k)])
  | none => .refused .range

/-- The commissioning key turned: OFF abandons an OPEN session of ZONES or FANS (R96, R191). -/
def State.turnCommissioningKey (s : State) (on : Bool) : State :=
  let s' := { s with pif := { s.pif with commissioningKey := on } }
  match s'.sst.session with
  | .opened v _ => if !on && v.block.protected? then s'.setSession .none else s'
  | _ => s'

/-! ## Loading (R187) -/

/-- The values in force after a load: stored contents where the marker is valid, factory defaults where it is clear
(R187). -/
def loadSettings (stored : Settings) (valid : PerBlock) : Settings where
  zones := if valid.zones then stored.zones else factory.zones
  fans := if valid.fans then stored.fans else factory.fans
  channels := if valid.channels then stored.channels else factory.channels
  timers := if valid.timers then stored.timers else factory.timers
  budget := if valid.budget then stored.budget else factory.budget
  windows := if valid.windows then stored.windows else factory.windows

/-- The blocks found with a clear marker. -/
def PerBlock.clear (t : PerBlock) : PerBlock :=
  ⟨!t.zones, !t.fans, !t.channels, !t.timers, !t.budget, !t.windows⟩

/-- The settings store after a load: stored contents and markers as they are, no session (R187). -/
def Sst.load (x : Sst) : Sst :=
  { x with inForce := loadSettings x.stored x.valid, defaulted := x.valid.clear, session := .none }

end Sys2Proof.Machine
end

