-- ==== Sys2Proof/Machine/Records.lean ====
section
/-! DEFINITION. The records read over the B-link, as bytes (section 13.4, R42, R100, R112, R132, R160, R179). -/

namespace Sys2Proof.Machine

/-! ## Codes shared by the records -/

/-- The code of a source; none is 0. -/
def sourceCode : Option Source → Nat
  | none => 0
  | some .panel => 1
  | some .fireLink => 2
  | some .fireContact => 3
  | some .adjacency => 4
  | some .gas => 5
  | some .bms => 6
  | some .schedule => 7

/-- The code of a directive. -/
def Directive.code : Directive → Nat
  | .idle => 0
  | .opened => 1
  | .shut => 2

/-- The code of a damper state. -/
def DamperState.code : DamperState → Nat
  | .closed => 0
  | .opening => 1
  | .opened => 2
  | .closing => 3
  | .fault => 4

/-- The code of a fault cause. -/
def FaultCause.code : FaultCause → Nat
  | .none => 0
  | .travel => 1
  | .disagree => 2

/-- The code of a zone switch position. -/
def positionCode : SwitchPosition → Nat
  | .auto => 0
  | .exhaust => 1
  | .off => 2

/-- The code of a group class. -/
def GroupClass.code : GroupClass → Nat
  | .normal => 0
  | .high => 1
  | .fire => 2

/-- The code of a curtailment. -/
def Curtailment.code : Curtailment → Nat
  | .none => 0
  | .capped => 1
  | .shed => 2

/-- The code of a fan state. -/
def FanState.code : FanState → Nat
  | .off => 0
  | .queued => 1
  | .starting => 2
  | .proving => 3
  | .running => 4
  | .stopping => 5
  | .tripped => 6
  | .locked => 7

/-- The code of a trip cause. -/
def TripCause.code : TripCause → Nat
  | .none => 0
  | .runTimeout => 1
  | .airflowTimeout => 2
  | .airflowLoss => 3
  | .driveFault => 4

/-- The code of a channel condition. -/
def Condition.code : Condition → Nat
  | .unused => 0
  | .active => 1
  | .inhibited => 2
  | .fault => 3

/-- The code of an alarm state. -/
def AlarmState.code : AlarmState → Nat
  | .normal => 0
  | .a1Pending => 1
  | .a1 => 2
  | .a2 => 3

/-- The code of a link state. -/
def LinkState.code : LinkState → Nat
  | .down => 0
  | .up => 1
  | .lost => 2

/-- The demand of a claim's kind; 0 for SHUT. -/
def ClaimKind.demand : ClaimKind → Nat
  | .exhaust d => d
  | .shut => 0

/-! ## The zone record -/

/-- A claim as it is read: source, level, demand, number of origins, the origins. -/
def Claim.bytes (c : Claim) : List Byte :=
  [byte (sourceCode (some c.source)), byte c.level, byte c.kind.demand, byte c.origins.length] ++
    c.origins.map fun z => byte z.number

/-- The fire order list entry of a zone as it is read: its position, and whether it is ACTIVE and alarm-present. -/
def fireEntryBytes (limit : Nat) (z : Zone) (l : List FireEntry) : List Byte :=
  let position := firePosition z l
  let alarm := l.any fun e => e.zone == z && e.alarmPresent
  [byte position, byte (bitsOf [decide (0 < position ∧ position ≤ limit), alarm])]

/-- The record of READ-ZONE. -/
def State.zoneRecord (s : State) (z : Zone) : List Byte :=
  let r := s.plant.zones.get z
  let d := s.plant.dampers.get z
  let e := s.fev.zones.get z
  let gas : List Byte := match e.gas with
    | some g => [byte g.level, byte g.demand]
    | none => [0#8, 0#8]
  [byte r.result.directive.code, byte r.result.demand, byte (sourceCode r.result.source), byte r.status.code,
      byte d.state.code, byte (bitsOf [d.commandOpen, d.openSwitch, d.closedSwitch] + 16 * d.cause.code)] ++
    word2 (timerCode d.timer) ++
    [byte (positionCode (s.pif.position.get z) + if s.pif.switchFault.get z then 128 else 0)] ++
    fireEntryBytes s.cfg.zones.originLimit z s.plant.fireOrder ++ gas ++ word2 (timerCode e.runOn) ++
    [0#8, 0#8, byte r.claims.length] ++ r.claims.flatMap Claim.bytes

/-! ## The group record -/

/-- The record of READ-GROUP. -/
def State.groupRecord (s : State) (g : Group) : List Byte :=
  let r := s.plant.gal.groups.get g
  [byte r.cls.code, byte r.demand, byte r.installed, byte r.available, byte r.count, byte r.speed,
      byte (r.curtailment.code + if r.unserved then 128 else 0)] ++
    r.chosen.flatMap (fun c => [byte c.fan.number, byte c.granted]) ++ r.duty.map fun f => byte f.number

/-! ## The fan record -/

/-- Whether a fan's entry is the staged one. -/
def Plant.isStaged (p : Plant) (f : Fan) : Bool :=
  match p.fsq.staged with
  | some x => x.fan == f
  | none => false

/-- The record of READ-FAN. -/
def State.fanRecord (s : State) (f : Fan) : List Byte :=
  let r := s.plant.fan f
  [byte r.state.code, byte r.cause.code, byte r.target, byte r.output,
      byte (bitsOf [r.fire, s.plant.isStaged f, r.running, r.airflow, r.driveFault]), byte r.attempts,
      byte (queuePosition f s.plant.fsq.queue)] ++ word2 (timerCode r.timer)

/-! ## The channel record -/

/-- The remaining inhibit time of a channel; 0 when it is not listed. -/
def State.inhibitLeft (s : State) (c : Channel) : Nat :=
  match s.scn.inhibits.find? fun e => e.channel == c with
  | some e => e.remaining
  | none => 0

/-- The record of READ-CHANNEL, with the fresh flag as it stands. -/
def State.channelRecord (s : State) (c : Channel) : List Byte :=
  let r := s.channel c
  let e := s.eval c
  [byte r.condition.code] ++ word2 r.raw ++ word2 r.average ++
    [byte e.alarm.code, byte (bitsOf [r.faultHeld, r.fresh])] ++ word2 (timerCode e.delay) ++
    word2 (s.inhibitLeft c)

/-! ## The summary record -/

/-- The fire order list as READ-SUMMARY reads it: zone, status and alarm-present of each entry. -/
def summaryEntries : Nat → List FireEntry → List Byte
  | _, [] => []
  | 0, e :: es => [byte e.zone.number, 0#8, flagByte e.alarmPresent] ++ summaryEntries 0 es
  | limit + 1, e :: es => [byte e.zone.number, 1#8, flagByte e.alarmPresent] ++ summaryEntries limit es

/-- The mask of the windows now open: bit w − 1 for window w. -/
def State.openWindowMask (s : State) : Nat :=
  bitsOf (WindowNo.all.map fun n => (openWindows s.cfg.windows s.dck).contains n)

/-- The record of READ-SUMMARY. -/
def State.summaryRecord (s : State) : List Byte :=
  let p := s.plant
  [byte p.spm.state.code, byte (bitsOf [p.spm.mainsHealthy, p.spm.generatorOnline]),
      byte (timerCode p.spm.settle)] ++
    word2 p.gal.budget ++ word2 (committed s.cfg p) ++
    [flagByte p.quiet, byte s.fif.link.code, flagByte s.fif.contact, s.fif.lastMap, byte s.troubleNow.code,
      byte (bitsOf [s.pif.panelKey, s.pif.commissioningKey, s.pif.lampTest]),
      byte (bitsOf (Zone.all.map s.pif.switchFault.get)), byte s.dck.day] ++
    word2 s.dck.minute ++ [byte s.dck.second, flagByte s.dck.isSet, byte s.openWindowMask, byte s.bli.link.code] ++
    word2 (timerCode s.bli.timer) ++ word2 (s.bli.cap.getD 65535) ++
    [0#8, 0#8, 0#8, 0#8, byte p.fireOrder.length] ++ summaryEntries s.cfg.zones.originLimit p.fireOrder

end Sys2Proof.Machine
end

