-- ==== Sys2Proof/Machine/Startup.lean ====
section
/-! DEFINITION. LOADING and the beginning of normal operation (R29, R52, R69, R88, R101, R115, R133, R161, R168, R174,
R185, R187), restart, power-on reset and power loss, and the second tick with the ramp. -/

namespace Sys2Proof.Machine

/-! ## Into LOADING (R187) -/

/-- Every block in LOADING, with the settings loaded and the address read from the straps; the clock record and the
contact state are what the caller keeps (R89, R169). The stored settings, the waiting commands and the replies sent
are not the part's volatile state. -/
def State.load (s : State) (straps : Nat) (clock : Dck) (contact : Bool) : State :=
  { s with
    mode := .loading, plant := .blank, scn := .blank, fev := .blank
    fif := { Fif.blank with contact := contact, assembling := s.fif.assembling }
    pif := .blank
    dck := { clock with held := .build fun _ => none }
    bli := { Bli.blank straps with assembling := s.bli.assembling }
    sst := s.sst.load, pins := .loading .fLinkOnly }

/-- Power applied (R187): nothing volatile is kept; the receivers wait for a lead byte. The entries of the fire order
list leave it here (R19), and with them FIRE-CHANGE is set (R18; log entry 31). -/
def State.powerOn (s : State) (straps : Nat) : State :=
  let s' := s.load straps .blank false
  { s' with
    plant := s'.plant.raiseIf (!s.plant.fireOrder.isEmpty) .fireChange
    fif := { s'.fif with assembling := false }, bli := { s'.bli with assembling := false } }

/-- The restart (R184): the clock record and the contact state are kept (R89, R169). -/
def State.restart (s : State) (straps : Nat) : State := s.load straps s.dck s.fif.contact

/-! ## The beginning of normal operation (R187) -/

/-- A channel record as scanning begins (R52). -/
def ChannelRec.start (x : ChannelSetting) : ChannelRec :=
  { ChannelRec.blank with condition := if x.zone.isSome then .active else .unused }

/-- A fan record from the present levels of its drive inputs (R161). -/
def FanRec.start (coast : Nat) (running airflow driveFault : Bool) : FanRec :=
  { FanRec.blank with
    state := if running then .stopping else .off, timer := if running then some coast else none
    running := running, airflow := airflow, driveFault := driveFault }

/-- The supply record from the present levels of its inputs, a settle delay started unless the state is TRANSFER
(R168). -/
def Spm.start (settle : Nat) (mainsHealthy generatorOnline : Bool) : Spm :=
  let state := decodeSupply mainsHealthy generatorOnline
  { mainsHealthy := mainsHealthy, generatorOnline := generatorOnline, state := state
    settle := if state = .transfer then none else some settle }

/-- The position that the two lines of a zone switch decode to; none is a switch fault (R92). -/
def decodeSwitch : Bool → Bool → Option SwitchPosition
  | false, false => some .auto
  | true, false => some .exhaust
  | false, true => some .off
  | true, true => none

/-- The panel record from the present levels of its inputs (R101). -/
def Pif.start (x : Lines) : Pif :=
  let read (z : Zone) := decodeSwitch (x.exhaustLine.get z) (x.offLine.get z)
  { position := .build fun z => (read z).getD .auto, switchFault := .build fun z => (read z).isNone
    panelKey := x.panelKey, commissioningKey := x.commissioningKey, lampTest := x.lampTest
    held := .build fun _ => none }

/-- The plant as normal operation begins, before the first pass (R29, R115, R133, R161, R168, R185). `fireChange` is
whether the start-up emptied the fire order list (R18). -/
def Plant.start (cfg : Settings) (fireChange defaulted : Bool) (x : Lines) : Plant :=
  let dampers : PerZone Damper :=
    .build fun z => Damper.start cfg.timers.travel (x.openSwitch.get z) (x.closedSwitch.get z)
  let p : Plant :=
    { Plant.blank with
      dampers := dampers
      gal := { Gal.blank with groups := .build fun g => { GroupRec.blank with duty := cfg.groupFans g } }
      fsq :=
        { Fsq.blank with
          fans := .build fun f =>
            FanRec.start cfg.timers.coast (x.running.get f) (x.airflow.get f) (x.driveFault.get f) }
      spm := Spm.start cfg.timers.settle x.mainsHealthy x.generatorOnline }
  (((p.raise .powerUp).raiseIf fireChange .fireChange).raiseIf defaulted .settingsDefaulted).raiseIf
    (Zone.all.any fun z => (dampers.get z).state == .fault) .damperFault

/-- Every block at the state its chapter gives it as normal operation begins (R187). -/
def State.begin (s : State) (x : Lines) : State :=
  { s with
    mode := .normal, plant := .start s.cfg s.plant.events.fireChange s.sst.defaulted.any x
    scn := { channels := .build fun c => .start (s.cfg.channels.channel.get c), inhibits := [], scanned := 0 }
    fev := .blank
    fif := { Fif.blank with contact := s.fif.contact, assembling := s.fif.assembling }
    pif := .start x
    dck := { s.dck with held := .build fun _ => none }
    bli := { Bli.blank s.bli.straps with address := s.bli.address, assembling := s.bli.assembling } }

/-- LOADING ends: the blocks begin, GAL runs its pass (R133), and the sources place their first claims: PANEL claims
under a key that reads ON (R101), contact claims under a kept ACTIVE contact (R89), SCHEDULE claims under a kept clock
(R174). -/
def State.beginOperation (s : State) (x : Lines) : State :=
  let s1 := (s.begin x).onPlant (runPass s.cfg)
  let s2 := if x.panelKey then Zone.all.foldl State.placePanel s1 else s1
  let s3 := if s2.fallback then s2.placeContact else s2
  s3.evaluateWindows

/-! ## Loss of power -/

/-- The outputs at the levels of an unpowered part: a FREE VALUE but for the trouble contact, which is open (R86). The
fire order list stands until the power-on reset (R19; log entry 31). -/
def State.unpower (s : State) : State :=
  let o := Config.unpoweredOutputs
  let dampers : PerZone Damper := .build fun z => { Damper.blank with commandOpen := o.damperOpen.get z }
  let fans : PerFan FanRec := .build fun f =>
    { FanRec.blank with run := o.run.get f, output := o.speed.get f, fireOverride := o.fireOverride.get f }
  { s with
    mode := .unpowered
    plant :=
      { Plant.blank with dampers := dampers, fsq := { Fsq.blank with fans := fans }, fireOrder := s.plant.fireOrder }
    scn := .blank, fev := .blank, fif := .blank, pif := .blank, dck := .blank, bli := .blank s.bli.straps
    sst := { s.sst with session := .none }
    pins :=
      { trouble := .fLinkOnly, contactOpen := true, zoneLamps := o.zoneLamps, groupLamps := o.groupLamps
        attention := o.attention } }

/-! ## The second tick (00_scope.md, Time and filtering) -/

/-- Every entry of the inhibit list counted down together (R46), and the scan of the next scan period started (R32). -/
def Scn.tick (x : Scn) : Scn :=
  { x with inhibits := x.inhibits.map fun e => { e with remaining := e.remaining - 1 }, scanned := 0 }

/-- Alarm delays (R58) and run-ons (R65) counted down. -/
def Fev.tick (x : Fev) : Fev :=
  { channels := .build fun c => { x.channels.get c with delay := tickTimer (x.channels.get c).delay }
    zones := .build fun z => { x.zones.get z with runOn := tickTimer (x.zones.get z).runOn } }

/-- The start spacing counted down by one; it stops at 0 (R143). -/
def tickSpacing : Option Nat → Option Nat
  | none => none
  | some n => if n ≤ 1 then none else some (n - 1)

/-- Travel (R108), state timers, the start spacing (R143) and the settle delay (R164) counted down. -/
def Plant.tick (p : Plant) : Plant :=
  { p with
    dampers := .build fun z => { p.dampers.get z with timer := tickTimer (p.dampers.get z).timer }
    fsq :=
      { p.fsq with
        fans := .build fun f => { p.fan f with timer := tickTimer (p.fan f).timer }
        spacing := tickSpacing p.fsq.spacing }
    spm := { p.spm with settle := tickTimer p.spm.settle } }

/-- Every timer counted down by one (00_scope.md, Time and filtering). A timer that reaches 0 stands at 0 until its
expiry is handled, as a command of its own (log entry 5). -/
def State.tick (s : State) : State :=
  { s with
    plant := s.plant.tick, scn := s.scn.tick, fev := s.fev.tick
    fif := { s.fif with timer := tickTimer s.fif.timer }
    bli := { s.bli with timer := tickTimer s.bli.timer } }

/-- The end of a ramp period: the second tick, the ramp and the queue test that ends it (R145, R150). -/
def State.rampPeriod (s : State) : State := s.tick.onPlant fun p => testQueue s.cfg (ramp s.cfg p)

end Sys2Proof.Machine
end

