-- ==== Sys2Proof/Machine/Requests.lean ====
section
/-! DEFINITION. The requests of the B-link (chapter 11 and section 11.4): what each does to the state and what it is
answered with, and the handling of a taken frame around it (R177). -/

namespace Sys2Proof.Machine

/-- What carrying out a request gives: the state after it and its answer. -/
abbrev Handler := State → State × Answer

/-! ## Numbers (R177, step 4) -/

/-- A request that names a zone: RANGE outside 1..8. -/
def withZone (z : Byte) (h : Zone → Handler) : Handler := fun s =>
  match Zone.ofNumber? z.toNat with
  | some z => h z s
  | none => (s, .refused .range)

/-- A request that names a group: RANGE outside 1..4. -/
def withGroup (g : Byte) (h : Group → Handler) : Handler := fun s =>
  match Group.ofNumber? g.toNat with
  | some g => h g s
  | none => (s, .refused .range)

/-- A request that names a fan: RANGE outside 1..12. -/
def withFan (f : Byte) (h : Fan → Handler) : Handler := fun s =>
  match Fan.ofNumber? f.toNat with
  | some f => h f s
  | none => (s, .refused .range)

/-- A request that names a channel: RANGE outside 1..16. -/
def withChannel (c : Byte) (h : Channel → Handler) : Handler := fun s =>
  match Channel.ofNumber? c.toNat with
  | some c => h c s
  | none => (s, .refused .range)

/-! ## Reads (R179) -/

/-- READ-SUMMARY. -/
def askSummary : Handler := fun s => (s, .doneWith s.summaryRecord)

/-- READ-ZONE. -/
def askZone (z : Byte) : Handler := withZone z fun z s => (s, .doneWith (s.zoneRecord z))

/-- READ-GROUP. -/
def askGroup (g : Byte) : Handler := withGroup g fun g s => (s, .doneWith (s.groupRecord g))

/-- READ-FAN. -/
def askFan (f : Byte) : Handler := withFan f fun f s => (s, .doneWith (s.fanRecord f))

/-- READ-CHANNEL: the record, and the fresh flag cleared (R41). -/
def askChannel (c : Byte) : Handler := withChannel c fun c s =>
  (s.setChannel c { s.channel c with fresh := false }, .doneWith (s.channelRecord c))

/-- FETCH-EVENTS: the set as it stands, emptied (R183). -/
def fetchPending : Handler := fun s =>
  ({ s with plant := { s.plant with events := .empty } }, .doneWith (word2 s.plant.events.code))

/-! ## Claims and the budget cap (R180, R181) -/

/-- CLAIM z EXHAUST d: above 100 clamped to 100, 0 handled as RELEASE (R180). -/
def askExhaust (z d : Byte) : Handler := withZone z fun z s =>
  if d.toNat = 0 then (s.releaseBms z, .done)
  else (s.claimBms z (.exhaust (min d.toNat 100)), .doneClamped (decide (100 < d.toNat)))

/-- CLAIM z SHUT (R180). -/
def askShut (z : Byte) : Handler := withZone z fun z s => (s.claimBms z .shut, .done)

/-- RELEASE z (R180). -/
def askRelease (z : Byte) : Handler := withZone z fun z s => (s.releaseBms z, .done)

/-- SET-BUDGET cap: above the mains budget clamped to it (R181). -/
def askBudget (cap : Word) : Handler := fun s =>
  (s.setCap (some (min cap.toNat s.cfg.budget.mains)), .doneClamped (decide (s.cfg.budget.mains < cap.toNat)))

/-- CLEAR-BUDGET (R181). -/
def askNoBudget : Handler := fun s => (s.setCap none, .done)

/-! ## The clock (R170, R171) -/

/-- The clock record replaced and the windows evaluated. -/
def State.putClock (s : State) (day minute second : Nat) : State :=
  ({ s with dck := { s.dck with day := day, minute := minute, second := second, isSet := true } }).evaluateWindows

/-- SET-CLOCK (R170). -/
def askClock (day : Byte) (minute : Word) (second : Byte) : Handler := fun s =>
  if 1 ≤ day.toNat ∧ day.toNat ≤ 7 ∧ minute.toNat ≤ 1439 ∧ second.toNat ≤ 59 then
    (s.putClock day.toNat minute.toNat second.toNat, .done)
  else (s, .refused .range)

/-- ADJUST-CLOCK: to the nearest whole minute (R171). -/
def askAdjust : Handler := fun s =>
  if s.dck.isSet then
    let clock := if s.dck.second < 30 then { s.dck with second := 0 } else s.dck.nextMinute
    (({ s with dck := clock }).evaluateWindows, .done)
  else (s, .refused .state)

/-! ## The inhibit list (R44, R47) -/

/-- INHIBIT c t (R44). -/
def askInhibit (c : Byte) (t : Word) : Handler := withChannel c fun c s =>
  if (s.channel c).condition = .unused then (s, .refused .state)
  else
    let d := inhibitTime s.cfg.timers.inhibit t.toNat
    if s.listed c then (s.renewInhibit c d.1, .doneClamped d.2)
    else if Config.maxInhibits ≤ s.scn.inhibits.length then (s, .refused .limit)
    else (s.startInhibit c d.1, .doneClamped d.2)

/-- RESTORE c (R47). -/
def askRestore (c : Byte) : Handler := withChannel c fun c s =>
  if s.listed c then ((s.setInhibits (withoutChannel c s.scn.inhibits)).endInhibit c, .done)
  else (s, .refused .state)

/-! ## Fan service (R156, R157) -/

/-- A fan record taken out of service: no cause, no attempts, outputs at rest (R156). -/
def FanRec.lock (r : FanRec) : FanRec := { r.release .locked with cause := .none, attempts := 0 }

/-- A fan taken to LOCKED, out of the queue if it was queued; GAL moves it to the end of its duty order and runs a pass
(R117, R156). -/
def lockPlantFan (cfg : Settings) (f : Fan) (p : Plant) : Plant :=
  let q := if (p.fan f).state = .queued then p.leave f else p
  takeReport cfg (refreshStatus cfg (q.setFan f (q.fan f).lock)) f

/-- LOCK-FAN f (R156). -/
def askLock (f : Byte) : Handler := withFan f fun f s =>
  let r := s.plant.fan f
  if r.state.inService ∧ r.fire = true then (s, .refused .state)
  else if r.state = .locked then (s, .done)
  else (s.onPlant (lockPlantFan s.cfg f), .done)

/-- A fan returned to OFF with nothing counted against it; GAL leaves its place and runs a pass (R117, R157). -/
def returnPlantFan (cfg : Settings) (f : Fan) (p : Plant) : Plant :=
  runPass cfg (refreshStatus cfg (p.setFan f { (p.fan f) with state := .off, cause := .none }))

/-- UNLOCK-FAN f (R157). -/
def askUnlock (f : Byte) : Handler := withFan f fun f s =>
  if (s.plant.fan f).state = .locked then (s.onPlant (returnPlantFan s.cfg f), .done) else (s, .refused .state)

/-- RESET-FAN f: the attempts count is set to 0 as well (R157). -/
def askReset (f : Byte) : Handler := withFan f fun f s =>
  if (s.plant.fan f).state = .tripped then
    (s.onPlant fun p => returnPlantFan s.cfg f (p.setFan f { p.fan f with attempts := 0 }), .done)
  else (s, .refused .state)

/-! ## The edit session (R186, R188, R189) -/

/-- OPEN-EDIT b. -/
def askOpen (b : Byte) : Handler := fun s => s.openEdit b

/-- WRITE-ITEM i v. -/
def askWrite (item value : Word) : Handler := fun s => s.writeItem item value

/-- COMMIT-EDIT. -/
def askCommit : Handler := fun s => s.commitEdit

/-- ABANDON-EDIT. -/
def askAbandon : Handler := fun s => s.abandonEdit

/-- READ-SETTING b i. -/
def askSetting (b : Byte) (item : Word) : Handler := fun s => (s, s.readSetting b item)

/-! ## The link and the part (R182, R184) -/

/-- RESTART: BUSY during a commit, STATE while a zone holds a level-5, -6 or -7 claim, otherwise every block enters
LOADING (R184). -/
def askRestart (straps : Nat) : Handler := fun s =>
  if s.inFlight then (s, .refused .busy)
  else if s.plant.fireSide then (s, .refused .state)
  else (s.restart straps, .done)

/-- RESTART that comes as a frame: no operand gives the level of the strap lines, and it is a FREE VALUE, another for each
such frame (R175; log entry 2). -/
def askRestartFrame : Handler := fun s => askRestart (Config.strapLines s.wire.restarts).toNat s.countRestart

/-- CLEAR-LINK (R182). -/
def askClearLink : Handler := fun s => ({ s with bli := { s.bli with latch := false } }, .done)

/-- A frame that is none of the requests (R177, step 3). -/
def askUnknown : Handler := fun s => (s, .refused .unknown)

/-- The request of a frame carried out. -/
def requestHandler : Request → Handler
  | .readSummary => askSummary
  | .readZone z => askZone z
  | .readGroup g => askGroup g
  | .readFan f => askFan f
  | .readChannel c => askChannel c
  | .fetchEvents => fetchPending
  | .claimExhaust z d => askExhaust z d
  | .claimShut z => askShut z
  | .release z => askRelease z
  | .setBudget cap => askBudget cap
  | .clearBudget => askNoBudget
  | .setClock day minute second => askClock day minute second
  | .adjustClock => askAdjust
  | .inhibit c t => askInhibit c t
  | .restore c => askRestore c
  | .lockFan f => askLock f
  | .unlockFan f => askUnlock f
  | .resetFan f => askReset f
  | .openEdit b => askOpen b
  | .writeItem item value => askWrite item value
  | .commitEdit => askCommit
  | .abandonEdit => askAbandon
  | .readSetting b item => askSetting b item
  | .restart => askRestartFrame
  | .clearLink => askClearLink

/-! ## A taken frame (R177) -/

/-- A taken frame of kind `kind` handled in the order of R177: BUSY during LOADING; otherwise supervision, then the
request, then the reply, which carries the responder address in use when the frame was taken. A part with no address
takes no frame (R175), and neither does one without power. -/
def State.answer (s : State) (kind : Byte) (h : Handler) : State :=
  if s.bli.address = 0 then s
  else
    match s.mode with
    | .unpowered => s
    | .loading => s.sendB (replyFrame s.bli.address kind (.refused .busy))
    | .normal =>
      let x := h s.hearB
      (x.1.sendB (replyFrame s.bli.address kind x.2)).settle

/-- A taken frame decoded (R177, step 3) and handled. -/
def State.take (s : State) (kind : Byte) (payload : List Byte) : State :=
  match decodeRequest kind payload with
  | some r => s.answer kind (requestHandler r)
  | none => s.answer kind askUnknown

/-- The head of the receive queue taken; nothing when no frame waits (R177). -/
def State.takeHead (s : State) : State :=
  match s.bli.queue with
  | [] => s
  | f :: fs => (s.setQueue fs).take f.kind f.payload

end Sys2Proof.Machine
end

