-- ==== Sys2Proof/Machine/PlantEvents.lean ====
section
/-! DEFINITION. The events of the field side as operations on the state: drive inputs and failures of fans, damper
switches and travel, the supply contacts, alarm delays and run-ons; and the form of a command that only a part in
normal operation takes. -/

namespace Sys2Proof.Machine

/-- A handling of a part in normal operation. During LOADING no block acts on its inputs (R187) and without power
nothing acts: the state is then left as it is. -/
def State.inService (s : State) (f : State → State) : State := if s.mode = .normal then (f s).settle else s

/-! ## Drives (R135, R146 to R149, R154) -/

/-- A filtered drive input of a fan. -/
def FanRec.level (r : FanRec) : DriveInput → Bool
  | .running => r.running
  | .airflow => r.airflow
  | .driveFault => r.driveFault

/-- A fan record with a filtered drive input at a new level. -/
def FanRec.setLevel (r : FanRec) (input : DriveInput) (made : Bool) : FanRec :=
  match input with
  | .running => { r with running := made }
  | .airflow => { r with airflow := made }
  | .driveFault => { r with driveFault := made }

/-- A change of a filtered drive input: recorded, and acted on in the states of R135. -/
def changeDriveInput (cfg : Settings) (f : Fan) (input : DriveInput) (made : Bool) (p : Plant) : Plant :=
  let r := p.fan f
  if r.level input = made then p
  else
    let q := p.setFan f (r.setLevel input made)
    match input, made with
    | .running, true => if r.state = .starting then fanEvent cfg (q.prove cfg f, []) else q
    | .airflow, true => if r.state = .proving then report cfg (q.prove cfg f, []) else q
    | .driveFault, true =>
      if r.state.inService && !r.fireOverride then fanEvent cfg (q.failFan f .driveFault) else q
    | _, false => q

/-- The airflow line of a RUNNING fan clear for 5 s (R148). The filtered input, which follows the line after 1 s, is
clear by then. -/
def airflowLost (cfg : Settings) (f : Fan) (p : Plant) : Plant :=
  if (p.fan f).state = .running then
    fanEvent cfg ((p.setFan f { p.fan f with airflow := false }).failFan f .airflowLoss)
  else p

/-- The expiry of the state timer of a fan in a state; nothing in any other state. -/
def expireIn (cfg : Settings) (state : FanState) (f : Fan) (p : Plant) : Plant :=
  if (p.fan f).state = state then expireFan cfg p f else p

/-! ## Dampers (R103, R108) -/

/-- The filtered level of an end switch. -/
def Damper.level (d : Damper) : EndSwitch → Bool
  | .openEnd => d.openSwitch
  | .closedEnd => d.closedSwitch

/-- A change of a filtered end switch, and what the new reading does (R103, R107, R109 to R111). -/
def changeEndSwitch (cfg : Settings) (z : Zone) (switch : EndSwitch) (made : Bool) (p : Plant) : Plant :=
  if (p.dampers.get z).level switch = made then p
  else damperEvent cfg z (fun d => (d.setSwitch switch made).read cfg.timers.travel) p

/-! ## The supply (R162 to R165) -/

/-- The supply record with a filtered contact at a new level. -/
def Spm.setLevel (x : Spm) (input : SupplyInput) (made : Bool) : Spm :=
  match input with
  | .mainsHealthy => { x with mainsHealthy := made }
  | .generatorOnline => { x with generatorOnline := made }

/-- A change of a filtered contact: the supply state is decoded again and its change handled (R162). -/
def changeSupplyInput (cfg : Settings) (cap : Option Nat) (input : SupplyInput) (made : Bool) (p : Plant) : Plant :=
  let spm := p.spm.setLevel input made
  changeSupply cfg cap (decodeSupply spm.mainsHealthy spm.generatorOnline) { p with spm := spm }

/-! ## Expiries of the fume evaluator and of the supply (R58, R65, R164) -/

/-- The expiry of a channel's alarm delay: A1, and GAS-ALARM (R58, R60). -/
def State.expireDelay (s : State) (c : Channel) : State :=
  let e := s.eval c
  if e.alarm = .a1Pending ∧ e.delay = some 0 then
    (s.setEval c { e with alarm := .a1, delay := none }).raise .gasAlarm
  else s

/-- The expiry of a zone's run-on: the zone is recomputed and no new run-on starts (R65). -/
def State.expireRunOn (s : State) (z : Zone) : State :=
  if (s.fev.zones.get z).runOn = some 0 then (s.setRunOn z none).recomputeZone z (mayStart := false) else s

/-- The expiry of the settle delay (R164). -/
def State.expireSettle (s : State) : State :=
  if s.plant.spm.settle = some 0 then s.onPlant (endSettle s.cfg s.bli.cap) else s

/-- The expiry of the start spacing: a queue test (R143). While the timer runs nothing has expired. -/
def State.expireSpacing (s : State) : State :=
  if s.plant.fsq.spacing = none then s.onPlant (testQueue s.cfg) else s

/-- The expiry of the F-link supervision timeout (R75). -/
def State.expireFLink (s : State) : State :=
  if s.fif.link = .up ∧ s.fif.timer = some 0 then s.loseFLink else s

/-- The expiry of the B-link supervision timeout (R178). -/
def State.expireBLink (s : State) : State :=
  if s.bli.link = .up ∧ s.bli.timer = some 0 then s.loseBLink else s

end Sys2Proof.Machine
end

