-- ==== Sys2Proof/Machine/LinkCommands.lean ====
section
/-! DEFINITION. The meanings of the commands of the two serial links, the fire contact and the power supply of the part:
one definition for each row. -/

namespace Sys2Proof.Machine

/-- What every meaning answers: the part has no state in which a command stops it. -/
abbrev Answered := Host.Outcome State Fault Refusal

/-- POWER_ON_RESET (R187). -/
def execPowerOnReset (straps : BitVec 5) (s : State) : Answered := .next (s.powerOn straps.toNat)

/-- LOADING_COMPLETE (R187). -/
def execLoadingComplete (lines : Lines) (s : State) : Answered :=
  .next (if s.mode = .loading then (s.beginOperation lines).settle else s)

/-- B_FRAME_COMPLETE (R176): examined during LOADING as at other times (R185). -/
def execBFrameComplete (bytes : List Byte) (s : State) : Answered :=
  .next (if s.mode = .unpowered then s else
    match afterLead bytes with
    | some bs => (s.completeB bs).settle
    | none => s)

/-- INTERBYTE_GAP_TIMEOUT (R192). -/
def execInterbyteGapTimeout (link : Link) (s : State) : Answered :=
  .next (if s.mode = .unpowered then s else (s.breakFrame link).settle)

/-- B_FRAME_TAKEN (R177). -/
def execBFrameTaken (s : State) : Answered := .next (if s.mode = .unpowered then s else s.takeHead)

/-- UNKNOWN_REQUEST: the taking of a frame of this kind and payload (R177). A kind and payload that spell a request
are carried out as that request of a taken frame (log entry 8). -/
def execUnknownRequest (kind : Byte) (payload : List Byte) (s : State) : Answered :=
  .next (s.take kind payload)

/-- B_LINK_SUPERVISION_EXPIRY (R178). -/
def execBLinkSupervisionExpiry (s : State) : Answered := .next (s.inService State.expireBLink)

/-- F_FRAME_RECEIVED (R71, R72). -/
def execFFrameReceived (bytes : List Byte) (s : State) : Answered :=
  .next (if s.mode = .unpowered then s else
    match afterLead bytes with
    | some bs => (s.completeF bs).settle
    | none => s)

/-- ZONE_STATE_FRAME (R72, R73). -/
def execZoneStateFrame (s : State) : Answered := .next (s.inService State.takeSlot)

/-- F_LINK_SUPERVISION_EXPIRY (R75). -/
def execFLinkSupervisionExpiry (s : State) : Answered := .next (s.inService State.expireFLink)

/-- GENERAL_FIRE_CONTACT_CHANGE (R79, R81). -/
def execGeneralFireContactChange (active : Bool) (s : State) : Answered :=
  .next (s.inService fun s => s.changeContact active)

/-- CHARACTER_FRAMING_ERROR (R192). -/
def execCharacterFramingError (link : Link) (s : State) : Answered :=
  .next (if s.mode = .unpowered then s else (s.breakFrame link).settle)

/-- LEAD_BYTE (R192). -/
def execLeadByte (link : Link) (s : State) : Answered :=
  .next (if s.mode = .unpowered then s else (s.startFrame link).settle)

/-- POWER_LOSS (R86, R190). -/
def execPowerLoss (s : State) : Answered := .next s.unpower

end Sys2Proof.Machine
end

