-- ==== Sys2Proof/Machine/PanelCommands.lean ====
section
/-! DEFINITION. The meanings of the commands of the fire service panel (chapter 5): one definition for each row. -/

namespace Sys2Proof.Machine

/-- ZONE_SWITCH_CHANGE (R92, R93, R95). -/
def execZoneSwitchChange (z : Zone) (position : SwitchPosition) (s : State) : Answered :=
  .next (s.inService fun s => s.takePosition z position)

/-- SWITCH_FAULT (R93). -/
def execSwitchFault (z : Zone) (s : State) : Answered := .next (s.inService fun s => s.faultSwitch z)

/-- PANEL_IN_CONTROL_KEY_CHANGE (R94). -/
def execPanelInControlKeyChange (on : Bool) (s : State) : Answered :=
  .next (s.inService fun s => s.turnPanelKey on)

/-- COMMISSIONING_KEY_CHANGE (R96, R191). -/
def execCommissioningKeyChange (on : Bool) (s : State) : Answered :=
  .next (s.inService fun s => s.turnCommissioningKey on)

/-- LAMP_TEST_CHANGE (R99). -/
def execLampTestChange (held : Bool) (s : State) : Answered :=
  .next (s.inService fun s => { s with pif := { s.pif with lampTest := held } })

end Sys2Proof.Machine
end

