-- ==== Sys2Proof/Machine/PlantCommands.lean ====
section
/-! DEFINITION. The meanings of the commands of dampers, fans, the supply and the settings write (chapters 6, 8, 9 and
12): one definition for each row. -/

namespace Sys2Proof.Machine

/-- END_SWITCH_CHANGE (R103). -/
def execEndSwitchChange (z : Zone) (switch : EndSwitch) (made : Bool) (s : State) : Answered :=
  .next (s.inService fun s => s.onPlant (changeEndSwitch s.cfg z switch made))

/-- TRAVEL_EXPIRY (R108). -/
def execTravelExpiry (z : Zone) (s : State) : Answered :=
  .next (s.inService fun s => s.onPlant (damperEvent s.cfg z Damper.expire))

/-- START_SPACING_EXPIRY (R143). -/
def execStartSpacingExpiry (s : State) : Answered := .next (s.inService State.expireSpacing)

/-- RUNNING_FEEDBACK: the filtered running input becomes made (R146). -/
def execRunningFeedback (f : Fan) (s : State) : Answered :=
  .next (s.inService fun s => s.onPlant (changeDriveInput s.cfg f .running true))

/-- AIRFLOW_PROVEN: the filtered airflow input becomes made (R147). -/
def execAirflowProven (f : Fan) (s : State) : Answered :=
  .next (s.inService fun s => s.onPlant (changeDriveInput s.cfg f .airflow true))

/-- DRIVE_FAULT: the filtered drive-fault input becomes made (R151, R154). -/
def execDriveFault (f : Fan) (s : State) : Answered :=
  .next (s.inService fun s => s.onPlant (changeDriveInput s.cfg f .driveFault true))

/-- RUN_TIMEOUT (R146). -/
def execRunTimeout (f : Fan) (s : State) : Answered :=
  .next (s.inService fun s => s.onPlant (expireIn s.cfg .starting f))

/-- AIRFLOW_TIMEOUT (R147). -/
def execAirflowTimeout (f : Fan) (s : State) : Answered :=
  .next (s.inService fun s => s.onPlant (expireIn s.cfg .proving f))

/-- AIRFLOW_LOSS (R148). -/
def execAirflowLoss (f : Fan) (s : State) : Answered :=
  .next (s.inService fun s => s.onPlant (airflowLost s.cfg f))

/-- COAST_EXPIRY (R149). -/
def execCoastExpiry (f : Fan) (s : State) : Answered :=
  .next (s.inService fun s => s.onPlant (expireIn s.cfg .stopping f))

/-- RAMP_PERIOD_END: the second tick and the ramp (R150). -/
def execRampPeriodEnd (s : State) : Answered := .next (s.inService State.rampPeriod)

/-- SUPPLY_INPUT_CHANGE (R162). -/
def execSupplyInputChange (input : SupplyInput) (made : Bool) (s : State) : Answered :=
  .next (s.inService fun s => s.onPlant (changeSupplyInput s.cfg s.bli.cap input made))

/-- SETTLE_EXPIRY (R164). -/
def execSettleExpiry (s : State) : Answered := .next (s.inService State.expireSettle)

/-- SETTINGS_WRITE_COMPLETE (R190). -/
def execSettingsWriteComplete (s : State) : Answered := .next (s.inService State.completeWrite)

/-- DRIVE_INPUT_CHANGE: a filtered drive input changes, and is acted on where R135 says so. -/
def execDriveInputChange (f : Fan) (input : DriveInput) (made : Bool) (s : State) : Answered :=
  .next (s.inService fun s => s.onPlant (changeDriveInput s.cfg f input made))

end Sys2Proof.Machine
end

