-- ==== Sys2Proof/Machine/RequestCommands.lean ====
section
/-! DEFINITION. The meanings of the B-link requests (section 11.4), each as the taking of a frame that carries it (R177):
one definition for each row. -/

namespace Sys2Proof.Machine

/-- READ_SUMMARY (R179). -/
def execReadSummary (s : State) : Answered := .next (s.answer Request.readSummary.kind askSummary)

/-- READ_ZONE (R179). -/
def execReadZone (z : Byte) (s : State) : Answered := .next (s.answer (Request.readZone z).kind (askZone z))

/-- READ_GROUP (R132). -/
def execReadGroup (g : Byte) (s : State) : Answered := .next (s.answer (Request.readGroup g).kind (askGroup g))

/-- READ_FAN (R160). -/
def execReadFan (f : Byte) (s : State) : Answered := .next (s.answer (Request.readFan f).kind (askFan f))

/-- READ_CHANNEL (R41, R42). -/
def execReadChannel (c : Byte) (s : State) : Answered := .next (s.answer (Request.readChannel c).kind (askChannel c))

/-- FETCH_EVENTS (R183). -/
def execFetchEvents (s : State) : Answered := .next (s.answer Request.fetchEvents.kind fetchPending)

/-- CLAIM_EXHAUST (R180). -/
def execClaimExhaust (z d : Byte) (s : State) : Answered :=
  .next (s.answer (Request.claimExhaust z d).kind (askExhaust z d))

/-- CLAIM_SHUT (R180). -/
def execClaimShut (z : Byte) (s : State) : Answered := .next (s.answer (Request.claimShut z).kind (askShut z))

/-- RELEASE (R180). -/
def execRelease (z : Byte) (s : State) : Answered := .next (s.answer (Request.release z).kind (askRelease z))

/-- SET_BUDGET (R181). -/
def execSetBudget (cap : Word) (s : State) : Answered := .next (s.answer (Request.setBudget cap).kind (askBudget cap))

/-- CLEAR_BUDGET (R181). -/
def execClearBudget (s : State) : Answered := .next (s.answer Request.clearBudget.kind askNoBudget)

/-- SET_CLOCK (R170). -/
def execSetClock (day : Byte) (minute : Word) (second : Byte) (s : State) : Answered :=
  .next (s.answer (Request.setClock day minute second).kind (askClock day minute second))

/-- ADJUST_CLOCK (R171). -/
def execAdjustClock (s : State) : Answered := .next (s.answer Request.adjustClock.kind askAdjust)

/-- INHIBIT (R44). -/
def execInhibit (c : Byte) (t : Word) (s : State) : Answered :=
  .next (s.answer (Request.inhibit c t).kind (askInhibit c t))

/-- RESTORE (R47). -/
def execRestore (c : Byte) (s : State) : Answered := .next (s.answer (Request.restore c).kind (askRestore c))

/-- LOCK_FAN (R156). -/
def execLockFan (f : Byte) (s : State) : Answered := .next (s.answer (Request.lockFan f).kind (askLock f))

/-- UNLOCK_FAN (R157). -/
def execUnlockFan (f : Byte) (s : State) : Answered := .next (s.answer (Request.unlockFan f).kind (askUnlock f))

/-- RESET_FAN (R157). -/
def execResetFan (f : Byte) (s : State) : Answered := .next (s.answer (Request.resetFan f).kind (askReset f))

/-- OPEN_EDIT (R188). -/
def execOpenEdit (b : Byte) (s : State) : Answered := .next (s.answer (Request.openEdit b).kind (askOpen b))

/-- WRITE_ITEM (R188). -/
def execWriteItem (item value : Word) (s : State) : Answered :=
  .next (s.answer (Request.writeItem item value).kind (askWrite item value))

/-- COMMIT_EDIT (R189). -/
def execCommitEdit (s : State) : Answered := .next (s.answer Request.commitEdit.kind askCommit)

/-- ABANDON_EDIT (R188). -/
def execAbandonEdit (s : State) : Answered := .next (s.answer Request.abandonEdit.kind askAbandon)

/-- READ_SETTING (R186). -/
def execReadSetting (b : Byte) (item : Word) (s : State) : Answered :=
  .next (s.answer (Request.readSetting b item).kind (askSetting b item))

/-- RESTART, with the strap lines at `straps` (R175, R184). -/
def execRestart (straps : BitVec 5) (s : State) : Answered :=
  .next (s.answer Request.restart.kind (askRestart straps.toNat))

/-- CLEAR_LINK (R182). -/
def execClearLink (s : State) : Answered := .next (s.answer Request.clearLink.kind askClearLink)

end Sys2Proof.Machine
end

