-- ==== Sys2Proof/Machine/SensingCommands.lean ====
section
/-! DEFINITION. The meanings of the commands of the gas side and of the clock (chapters 2, 3 and 10): one definition for
each row. -/

namespace Sys2Proof.Machine

/-- CHANNEL_SAMPLE (R32, R34 to R37, R49, R54). -/
def execChannelSample (c : Channel) (q : BitVec 10) (s : State) : Answered :=
  .next (s.inService fun s => s.convert c q.toNat)

/-- INHIBIT_EXPIRY (R46, R48). -/
def execInhibitExpiry (c : Channel) (s : State) : Answered := .next (s.inService fun s => s.expireInhibit c)

/-- ALARM_DELAY_EXPIRY (R58). -/
def execAlarmDelayExpiry (c : Channel) (s : State) : Answered := .next (s.inService fun s => s.expireDelay c)

/-- RUN_ON_EXPIRY (R65). -/
def execRunOnExpiry (z : Zone) (s : State) : Answered := .next (s.inService fun s => s.expireRunOn z)

/-- MINUTE_BOUNDARY (R169); a kept clock goes on counting through a restart. -/
def execMinuteBoundary (s : State) : Answered :=
  .next (if s.mode = .unpowered then s else s.minuteBoundary.settle)

/-- CLOCK_SECOND (R169); a kept clock goes on counting through a restart. -/
def execClockSecond (s : State) : Answered :=
  .next (if s.mode = .unpowered then s else s.clockSecond.settle)

end Sys2Proof.Machine
end

