-- ==== Sys2Proof/Machine/Dispatch.lean ====
section
/-! DEFINITION. The dispatch of commands to their meanings. -/

namespace Sys2Proof.Machine

/-- The effect of a command on everything but the queue of waiting commands. -/
def exec (i : Instr) (s : State) : Host.Outcome State Fault Refusal :=
  match i with
  | .powerOnReset straps => Sys2Proof.Machine.execPowerOnReset straps s
  | .loadingComplete lines => Sys2Proof.Machine.execLoadingComplete lines s
  | .bFrameComplete bytes => Sys2Proof.Machine.execBFrameComplete bytes s
  | .interbyteGapTimeout link => Sys2Proof.Machine.execInterbyteGapTimeout link s
  | .bFrameTaken => Sys2Proof.Machine.execBFrameTaken s
  | .unknownRequest kind payload => Sys2Proof.Machine.execUnknownRequest kind payload s
  | .readSummary => Sys2Proof.Machine.execReadSummary s
  | .readZone z => Sys2Proof.Machine.execReadZone z s
  | .readGroup g => Sys2Proof.Machine.execReadGroup g s
  | .readFan f => Sys2Proof.Machine.execReadFan f s
  | .readChannel c => Sys2Proof.Machine.execReadChannel c s
  | .fetchEvents => Sys2Proof.Machine.execFetchEvents s
  | .claimExhaust z d => Sys2Proof.Machine.execClaimExhaust z d s
  | .claimShut z => Sys2Proof.Machine.execClaimShut z s
  | .release z => Sys2Proof.Machine.execRelease z s
  | .setBudget cap => Sys2Proof.Machine.execSetBudget cap s
  | .clearBudget => Sys2Proof.Machine.execClearBudget s
  | .setClock day minute second => Sys2Proof.Machine.execSetClock day minute second s
  | .adjustClock => Sys2Proof.Machine.execAdjustClock s
  | .inhibit c t => Sys2Proof.Machine.execInhibit c t s
  | .restore c => Sys2Proof.Machine.execRestore c s
  | .lockFan f => Sys2Proof.Machine.execLockFan f s
  | .unlockFan f => Sys2Proof.Machine.execUnlockFan f s
  | .resetFan f => Sys2Proof.Machine.execResetFan f s
  | .openEdit b => Sys2Proof.Machine.execOpenEdit b s
  | .writeItem item value => Sys2Proof.Machine.execWriteItem item value s
  | .commitEdit => Sys2Proof.Machine.execCommitEdit s
  | .abandonEdit => Sys2Proof.Machine.execAbandonEdit s
  | .readSetting b item => Sys2Proof.Machine.execReadSetting b item s
  | .restart straps => Sys2Proof.Machine.execRestart straps s
  | .clearLink => Sys2Proof.Machine.execClearLink s
  | .bLinkSupervisionExpiry => Sys2Proof.Machine.execBLinkSupervisionExpiry s
  | .fFrameReceived bytes => Sys2Proof.Machine.execFFrameReceived bytes s
  | .zoneStateFrame => Sys2Proof.Machine.execZoneStateFrame s
  | .fLinkSupervisionExpiry => Sys2Proof.Machine.execFLinkSupervisionExpiry s
  | .generalFireContactChange active => Sys2Proof.Machine.execGeneralFireContactChange active s
  | .zoneSwitchChange z position => Sys2Proof.Machine.execZoneSwitchChange z position s
  | .switchFault z => Sys2Proof.Machine.execSwitchFault z s
  | .panelInControlKeyChange on => Sys2Proof.Machine.execPanelInControlKeyChange on s
  | .commissioningKeyChange on => Sys2Proof.Machine.execCommissioningKeyChange on s
  | .lampTestChange held => Sys2Proof.Machine.execLampTestChange held s
  | .channelSample c q => Sys2Proof.Machine.execChannelSample c q s
  | .inhibitExpiry c => Sys2Proof.Machine.execInhibitExpiry c s
  | .alarmDelayExpiry c => Sys2Proof.Machine.execAlarmDelayExpiry c s
  | .runOnExpiry z => Sys2Proof.Machine.execRunOnExpiry z s
  | .endSwitchChange z switch made => Sys2Proof.Machine.execEndSwitchChange z switch made s
  | .travelExpiry z => Sys2Proof.Machine.execTravelExpiry z s
  | .startSpacingExpiry => Sys2Proof.Machine.execStartSpacingExpiry s
  | .runningFeedback f => Sys2Proof.Machine.execRunningFeedback f s
  | .airflowProven f => Sys2Proof.Machine.execAirflowProven f s
  | .driveFault f => Sys2Proof.Machine.execDriveFault f s
  | .runTimeout f => Sys2Proof.Machine.execRunTimeout f s
  | .airflowTimeout f => Sys2Proof.Machine.execAirflowTimeout f s
  | .airflowLoss f => Sys2Proof.Machine.execAirflowLoss f s
  | .coastExpiry f => Sys2Proof.Machine.execCoastExpiry f s
  | .rampPeriodEnd => Sys2Proof.Machine.execRampPeriodEnd s
  | .supplyInputChange input made => Sys2Proof.Machine.execSupplyInputChange input made s
  | .settleExpiry => Sys2Proof.Machine.execSettleExpiry s
  | .minuteBoundary => Sys2Proof.Machine.execMinuteBoundary s
  | .settingsWriteComplete => Sys2Proof.Machine.execSettingsWriteComplete s
  | .characterFramingError link => Sys2Proof.Machine.execCharacterFramingError link s
  | .leadByte link => Sys2Proof.Machine.execLeadByte link s
  | .clockSecond => Sys2Proof.Machine.execClockSecond s
  | .driveInputChange f input made => Sys2Proof.Machine.execDriveInputChange f input made s
  | .powerLoss => Sys2Proof.Machine.execPowerLoss s

end Sys2Proof.Machine
end

