-- ==== Sys2Proof/Safety.lean ====
section
/-! DEFINITION. What counts as a safe state of the part, in the terms claims use: the rules that hold of every state of
the machine, each a property of one state, and the conditions under which a handling ends without applying a waiting
settings block. -/

namespace Sys2Proof.Machine

/-! ## The claim table (R1, R5, R12) -/

/-- A claim list in order: by level, highest first, and at most one claim of each source (R2, R5). -/
def ListRanked (l : List Claim) : Prop :=
  l.Pairwise (fun c d => d.level ≤ c.level) ∧ (l.map Claim.source).Nodup

/-- Every claim list is in order, every zone result is the one its list gives, and the fire order list names each zone
at most once. -/
def Plant.TableOk (p : Plant) : Prop :=
  (∀ z, ListRanked (p.zones.get z).claims ∧ (p.zones.get z).result = resultOf (p.zones.get z).claims) ∧
    (p.fireOrder.map FireEntry.zone).Nodup

/-- The three filtered inputs of a fan's drive. -/
def FanRec.inputs (r : FanRec) : Bool × Bool × Bool := (r.running, r.airflow, r.driveFault)

/-- From one plant to another, the claim lists and results, the fire order list, the dampers, the supply record, the
budget in force, the supply hold and the drive inputs are as they were, and no event is taken back: what no allocation
pass, queue test or failure of a fan touches. -/
structure Plant.SameFireSide (p q : Plant) : Prop where
  claims : ∀ z, (q.zones.get z).claims = (p.zones.get z).claims
  result : ∀ z, (q.zones.get z).result = (p.zones.get z).result
  fireOrder : q.fireOrder = p.fireOrder
  dampers : q.dampers = p.dampers
  spm : q.spm = p.spm
  budget : q.gal.budget = p.gal.budget
  events : ∀ k, p.events.has k = true → q.events.has k = true
  hold : q.fsq.hold = p.fsq.hold
  inputs : ∀ f, (q.fan f).inputs = (p.fan f).inputs

/-! ## Dampers (R104) -/

/-- A damper after its zone's directive went from that of `old` to that of `new` (R11, R104). -/
def Damper.follow (travel : Nat) (old new : ZoneResult) (d : Damper) : Damper :=
  if old.directive = new.directive then d else d.obey travel (new.directive == .opened)

/-- Every damper is commanded open exactly while its zone's directive is OPEN. -/
def Plant.CommandsFollow (p : Plant) : Prop :=
  ∀ z, (p.dampers.get z).commandOpen = ((p.zones.get z).result.directive == .opened)

/-! ## Claim requests (R6, R7, R11) -/

/-- What a request that changes the claim list of one zone to `l` does (R6, R7, R11). -/
structure Plant.Requested (cfg : Settings) (z : Zone) (l : List Claim) (p q : Plant) : Prop where
  claims : (q.zones.get z).claims = l
  others : ∀ y, y ≠ z → (q.zones.get y).claims = (p.zones.get y).claims
  result : ∀ y, (q.zones.get y).result = resultOf (q.zones.get y).claims
  damper : ∀ y, q.dampers.get y =
    (p.dampers.get y).follow cfg.timers.travel (p.zones.get y).result (q.zones.get y).result
  fireOrder : q.fireOrder = p.fireOrder
  spm : q.spm = p.spm
  budget : q.gal.budget = p.gal.budget
  hold : q.fsq.hold = p.fsq.hold
  inputs : ∀ f, (q.fan f).inputs = (p.fan f).inputs
  events : ∀ k, p.events.has k = true → q.events.has k = true

/-- From one plant to another, only claims of one source have come or gone, with what follows from them on the fan side:
every other claim, the fire order list, the supply record, the budget, the supply hold, the filtered inputs of dampers
and drives are as they were, and no event is taken back. -/
structure Plant.OnlySource (src : Source) (p q : Plant) : Prop where
  others : ∀ z, withoutSource src (q.zones.get z).claims = withoutSource src (p.zones.get z).claims
  fireOrder : q.fireOrder = p.fireOrder
  switches : ∀ z, (q.dampers.get z).openSwitch = (p.dampers.get z).openSwitch ∧
    (q.dampers.get z).closedSwitch = (p.dampers.get z).closedSwitch
  spm : q.spm = p.spm
  budget : q.gal.budget = p.gal.budget
  hold : q.fsq.hold = p.fsq.hold
  inputs : ∀ f, (q.fan f).inputs = (p.fan f).inputs
  events : ∀ k, p.events.has k = true → q.events.has k = true

/-- What each source holds by its own record is what the claim table holds of it: the panel's claims (R94), FEV's GAS
claims (R63), the controller's BMS claims (R180) and the clock's SCHEDULE claims (R173). -/
def State.SourcesAgree (s : State) : Prop := ∀ z,
  claimOf .panel (s.plant.zones.get z).claims = (s.pif.held.get z).map panelClaim ∧
    claimOf .gas (s.plant.zones.get z).claims = (s.fev.zones.get z).gas.map gasClaim ∧
    claimOf .bms (s.plant.zones.get z).claims = (s.bli.held.get z).map bmsClaim ∧
    claimOf .schedule (s.plant.zones.get z).claims = (s.dck.held.get z).map scheduleClaim

/-! ## The start queue and the starts (R134, R137, R140, R144, R158) -/

/-- The start queue holds only QUEUED fans, each at most once, and every QUEUED fan; its order is that of class and
arrival; a staged entry stands at its head. -/
def Plant.QueueOk (p : Plant) : Prop :=
  (∀ e ∈ p.fsq.queue, (p.fan e.fan).state = .queued ∧ e.arrival < p.fsq.nextArrival) ∧
    (p.fsq.queue.map QueueEntry.fan).Nodup ∧ (p.fsq.queue.map QueueEntry.arrival).Nodup ∧
    (∀ f, (p.fan f).state = .queued → f ∈ p.fsq.queue.map QueueEntry.fan) ∧
    p.fsq.queue.Pairwise (fun a b => a.ahead b = true) ∧
    (∀ x, p.fsq.staged = some x → (p.fsq.queue.head?.map QueueEntry.fan) = some x.fan)

/-- At most one fan is in STARTING. -/
def Plant.OneStart (p : Plant) : Prop :=
  ∀ f g, (p.fan f).state = .starting → (p.fan g).state = .starting → f = g

/-- The run command is on exactly in STARTING, PROVING and RUNNING; the supply-hold indication holds exactly during
TRANSFER or a settle delay, which never run together; and during it nothing is staged and no run command is on. -/
def Plant.HoldOk (p : Plant) : Prop :=
  (∀ f, (p.fan f).run = (p.fan f).state.inService) ∧ p.fsq.hold = p.supplyHold ∧
    (p.spm.settle.isSome = true → p.spm.state ≠ .transfer) ∧
    (p.fsq.hold = true → p.fsq.staged = none ∧ ∀ f, (p.fan f).run = false)

/-! ## Lists, queues and the clock (R43, R169, R175) -/

/-- The inhibit list holds at most four entries, each a different channel, shortest remaining time first. -/
def State.InhibitsOk (s : State) : Prop :=
  s.scn.inhibits.length ≤ Config.maxInhibits ∧ (s.scn.inhibits.map Inhibit.channel).Nodup ∧
    s.scn.inhibits.Pairwise (fun a b => a.remaining ≤ b.remaining)

/-- The receive queue holds at most two frames, the strap level is one of five lines, and outside normal operation the
F-link's receive slot is empty (R88). -/
def State.ReceiveOk (s : State) : Prop :=
  s.bli.queue.length ≤ Config.receiveQueueLength ∧ s.bli.straps < 32 ∧ (s.mode ≠ .normal → s.fif.slot = none)

/-- The clock record lies in its ranges, and an unset clock reads day 1, minute 0, second 0. -/
def State.ClockOk (s : State) : Prop :=
  1 ≤ s.dck.day ∧ s.dck.day ≤ 7 ∧ s.dck.minute ≤ 1439 ∧ s.dck.second ≤ 59 ∧
    (s.dck.isSet = false → s.dck.day = 1 ∧ s.dck.minute = 0 ∧ s.dck.second = 0)

/-- A channel's average is that of its ring, and 0 on an empty ring; a channel that is not ACTIVE with a primed ring has
no alarm state, delay, venting flag or demand; and a delay runs exactly in A1-PENDING. -/
def State.ReadingsOk (s : State) : Prop := ∀ c,
  (s.channel c).average = ((s.channel c).ring.map Ring.mean).getD 0 ∧
    (s.countedChannel c = false → s.eval c = .blank) ∧
    ((s.eval c).delay.isSome = true ↔ (s.eval c).alarm = .a1Pending)

/-- In normal operation each group's duty order holds the fans assigned to the group, each once (R117). -/
def State.DutyOk (s : State) : Prop := s.mode = .normal → ∀ g,
  (s.plant.gal.groups.get g).duty.Nodup ∧
    ∀ f, f ∈ (s.plant.gal.groups.get g).duty ↔ s.cfg.fans.group.get f = some g

/-! ## Outputs (R26, R85, R86, R97 to R99, R183) -/

/-- The smoke-control status that a zone's claims, damper and group give it (R26): NONE without a level-5, -6 or -7
claim; otherwise by the winning claim, as an exhaust zone or as a shut zone. -/
def StatusSays (cfg : Settings) (p : Plant) (z : Zone) (status : SmokeStatus) : Prop :=
  let claims := (p.zones.get z).claims
  let damper := (p.dampers.get z).state
  let mine (f : Fan) : Prop := cfg.fans.group.get f = some (cfg.zones.group.get z)
  let lost (f : Fan) : Prop := (p.fan f).state = .tripped ∨ (p.fan f).state = .locked
  ((∀ c ∈ claims, c.level < 5) → status = .none) ∧
    ∀ c cs, claims = c :: cs → (∃ x ∈ claims, 5 ≤ x.level) →
      (∀ d, c.kind = .exhaust d →
        (damper = .fault ∨ (∀ f, mine f → lost f) → status = .failed) ∧
        (damper ≠ .fault → (∃ f, mine f ∧ ¬lost f) →
          (damper = .opened ∧ (∃ f, mine f ∧ (p.fan f).state = .running) → status = .confirmedExhaust) ∧
          (damper ≠ .opened ∨ (∀ f, mine f → (p.fan f).state ≠ .running) → status = .pending))) ∧
      (c.kind = .shut →
        (damper = .fault → status = .failed) ∧ (damper = .closed → status = .confirmedShut) ∧
          (damper ≠ .fault → damper ≠ .closed → status = .pending))

/-- Every zone's smoke-control status is the one that R26 gives it. -/
def State.StatusesOk (s : State) : Prop := ∀ z, StatusSays s.cfg s.plant z (s.plant.zones.get z).status

/-- The trouble summary holds each condition exactly while the state it names holds (R85). -/
def State.TroubleSays (s : State) (x : Trouble) : Prop :=
  (x.fLink = true ↔ s.fif.link = .down ∨ s.fif.link = .lost) ∧
    (x.channel = true ↔ ∃ c, (s.channel c).condition = .fault ∨
      ((s.channel c).condition = .inhibited ∧ (s.channel c).faultHeld = true)) ∧
    (x.damper = true ↔ ∃ z, (s.plant.dampers.get z).state = .fault) ∧
    (x.fan = true ↔ ∃ f, (s.plant.fan f).state = .tripped) ∧
    (x.groupUnserved = true ↔ ∃ g, (s.plant.gal.groups.get g).unserved = true) ∧
    (x.fireBudget = true ↔ s.plant.gal.fireShort = true) ∧
    (x.settings = true ↔ ∃ b, s.sst.defaulted.get b = true) ∧
    (x.panelSwitch = true ↔ ∃ z, s.pif.switchFault.get z = true)

/-- A zone's lamps: all lit under the lamp test, otherwise OPEN, SHUT and FAULT as R97 gives them (R97, R99). -/
def State.ZoneLampsSay (s : State) (z : Zone) (x : Config.ZoneLamps) : Prop :=
  let damper := (s.plant.dampers.get z).state
  (s.pif.lampTest = true → x = ⟨true, true, true⟩) ∧
    (s.pif.lampTest = false →
      (x.opened = true ↔ damper = .opened) ∧ (x.shut = true ↔ damper = .closed) ∧
        (x.fault = true ↔ damper = .fault ∨ (s.plant.zones.get z).status = .failed))

/-- A group's lamps: both lit under the lamp test, otherwise RUN and TRIP by the fans assigned to it (R98, R99). -/
def State.GroupLampsSay (s : State) (g : Group) (x : Config.GroupLamps) : Prop :=
  (s.pif.lampTest = true → x = ⟨true, true⟩) ∧
    (s.pif.lampTest = false →
      (x.run = true ↔ ∃ f, s.cfg.fans.group.get f = some g ∧ (s.plant.fan f).state = .running) ∧
        (x.trip = true ↔ ∃ f, s.cfg.fans.group.get f = some g ∧
          ((s.plant.fan f).state = .tripped ∨ (s.plant.fan f).state = .locked)))

/-- In normal operation the trouble summary, the lamps and the attention line are those that R85, R97 to R99 and R183
give, and the trouble contact is open exactly while the summary holds a condition (R86). During LOADING the contact is
open, every lamp dark and the attention line released (R86, R101, R185); without power the contact is open (R86). -/
def State.OutputsOk (s : State) : Prop :=
  (s.mode = .normal →
    s.TroubleSays s.pins.trouble ∧
      (s.pins.contactOpen = true ↔
        s.pins.trouble ≠ ⟨false, false, false, false, false, false, false, false⟩) ∧
      (∀ z, s.ZoneLampsSay z (s.pins.zoneLamps.get z)) ∧ (∀ g, s.GroupLampsSay g (s.pins.groupLamps.get g)) ∧
      (s.pins.attention = true ↔ ∃ k, s.plant.events.has k = true)) ∧
    (s.mode ≠ .normal → s.pins.contactOpen = true) ∧
    (s.mode = .loading →
      (∀ z, s.pins.zoneLamps.get z = ⟨false, false, false⟩) ∧ (∀ g, s.pins.groupLamps.get g = ⟨false, false⟩) ∧
        s.pins.attention = false)

/-- The fire-override output of every fan is set exactly while its run command is on and its fire flag is set
(R154). -/
def Plant.OverrideOk (p : Plant) : Prop := ∀ f, (p.fan f).fireOverride = ((p.fan f).run && (p.fan f).fire)

/-- A written block waits only in a ZONES or FANS commit and while its condition fails: a zone holds a level-5, -6 or
-7 claim, or a fan is in a state other than OFF, TRIPPED and LOCKED (R190). -/
def State.WaitingOk (s : State) : Prop :=
  s.mode = .normal → ∀ v, s.sst.session = .committing v true →
    (v.block = .zones ∨ v.block = .fans) ∧
      ((∃ z, ∃ c ∈ (s.plant.zones.get z).claims, 5 ≤ c.level) ∨
        ∃ f, (s.plant.fan f).state ∉ [FanState.off, .tripped, .locked])

/-! ## Settings items (section 13.5) -/

/-- The range of item `i` of a block, as sections 1.5, 2.1, 3.1, 4.1, 6.1, 7.1, 8.1, 9.1, 10.2, 11.1 and 13.5 give
it; none where the block has no such item. -/
def Block.itemRange : Block → Nat → Option (Nat × Nat)
  | .zones, i =>
    if 1 ≤ i ∧ i ≤ 8 then some (1, 4) else if 9 ≤ i ∧ i ≤ 17 then some (0, 255) else if i = 18 then some (1, 3)
    else none
  | .fans, i =>
    if 1 ≤ i ∧ i ≤ 12 then some (0, 4) else if 13 ≤ i ∧ i ≤ 24 then some (1, 1500)
    else if 25 ≤ i ∧ i ≤ 28 then some (20, 60) else none
  | .channels, i =>
    if 1 ≤ i ∧ i ≤ 128 then
      [(0, 8), (1, 3), (10, 10000), (1, 10000), (1, 10000), (1, 10000), (0, 9999), (0, 600)][(i - 1) % 8]?
    else if 129 ≤ i ∧ i ≤ 152 then [(10, 50), (0, 3600), (0, 100)][(i - 129) % 3]?
    else none
  | .timers, i =>
    if i = 0 then none
    else [(10, 180), (2, 30), (5, 120), (2, 60), (10, 300), (1, 20), (5, 60), (3, 30), (10, 600), (60, 3600)][i - 1]?
  | .budget, i => if 1 ≤ i ∧ i ≤ 2 then some (0, 9999) else none
  | .windows, i =>
    if 1 ≤ i ∧ i ≤ 20 then [(0, 127), (0, 1439), (0, 1439), (0, 255), (10, 100)][(i - 1) % 5]? else none

/-! ## Handlings that end plainly -/

/-- No committed block waits for its application (R190), so that a handling ends with its own effect alone. -/
def State.NothingWaits (s : State) : Prop := ∀ v, s.sst.session ≠ .committing v true

/-- The part is in normal operation and no committed block waits. -/
def State.Plain (s : State) : Prop := s.mode = .normal ∧ s.NothingWaits

/-- The part is in normal operation at an address of its own, and no committed block waits: a taken frame is answered
with its own effect alone. -/
def State.Addressed (s : State) : Prop := s.Plain ∧ s.bli.address ≠ 0

/-! ## Taken frames -/

/-- From `s` to `t`, a taken frame of kind `kind` was answered `a`: the reply is on the B-link, the link is UP and its
supervision restarted (R177, steps 2 and 5). -/
def State.Replied (s t : State) (kind : Byte) (a : Answer) : Prop :=
  t.wire = { s.wire with bLink := (replyFrame s.bli.address kind a).bytes :: s.wire.bLink } ∧
    t.bli.link = .up ∧ t.bli.timer = some s.cfg.timers.bLink

/-- The state after a taken frame was answered with nothing more done. -/
def State.replied (s : State) (kind : Byte) (a : Answer) : State :=
  (s.hearB.sendB (replyFrame s.bli.address kind a)).refreshPins

/-! ## Failures of a fan (R151) -/

/-- The command is a failure of fan `f` with this cause, in the state in which it is one (R146 to R148, R151, R154). -/
def State.Fails (s : State) (c : Instr) (f : Fan) (cause : TripCause) : Prop :=
  (c = .runTimeout f ∧ cause = .runTimeout ∧ (s.plant.fan f).state = .starting ∧ (s.plant.fan f).timer = some 0) ∨
    (c = .airflowTimeout f ∧ cause = .airflowTimeout ∧ (s.plant.fan f).state = .proving ∧
      (s.plant.fan f).timer = some 0) ∨
    (c = .airflowLoss f ∧ cause = .airflowLoss ∧ (s.plant.fan f).state = .running) ∨
    ((c = .driveFault f ∨ c = .driveInputChange f .driveFault true) ∧ cause = .driveFault ∧
      (s.plant.fan f).state.inService = true ∧ (s.plant.fan f).driveFault = false ∧
      (s.plant.fan f).fireOverride = false)

end Sys2Proof.Machine
end

