-- ==== Sys2Proof/WellFormed.lean ====
section
/-! DEFINITION. Which commands are well formed: operands that the links can bring. The fields of a request may hold any
value of their width, since the part answers those out of range itself (R177). -/

namespace Sys2Proof

open Machine

/-- Whether bytes can stand between a lead byte and the end of a frame: the lead byte first, and no more than an
envelope with its longest payload (R192). -/
def frameShaped (bytes : List Byte) : Bool := bytes.head? == some leadOctet && decide (bytes.length ≤ Config.maxPayload + 6)

/-- Whether a kind and payload fit a frame and spell none of the listed requests (R177). -/
def spellsNoRequest (kind : Byte) (payload : List Byte) : Bool :=
  decide (payload.length ≤ Config.maxPayload) && (decodeRequest kind payload).isNone

/-- Whether a command is well formed. -/
def Instr.wellFormed : Instr → Bool
  | .powerOnReset _ => true
  | .loadingComplete _ => true
  | .bFrameComplete bytes => frameShaped bytes
  | .interbyteGapTimeout _ => true
  | .bFrameTaken => true
  | .unknownRequest kind payload => spellsNoRequest kind payload
  | .readSummary => true
  | .readZone _ => true
  | .readGroup _ => true
  | .readFan _ => true
  | .readChannel _ => true
  | .fetchEvents => true
  | .claimExhaust _ _ => true
  | .claimShut _ => true
  | .release _ => true
  | .setBudget _ => true
  | .clearBudget => true
  | .setClock _ _ _ => true
  | .adjustClock => true
  | .inhibit _ _ => true
  | .restore _ => true
  | .lockFan _ => true
  | .unlockFan _ => true
  | .resetFan _ => true
  | .openEdit _ => true
  | .writeItem _ _ => true
  | .commitEdit => true
  | .abandonEdit => true
  | .readSetting _ _ => true
  | .restart _ => true
  | .clearLink => true
  | .bLinkSupervisionExpiry => true
  | .fFrameReceived bytes => frameShaped bytes
  | .zoneStateFrame => true
  | .fLinkSupervisionExpiry => true
  | .generalFireContactChange _ => true
  | .zoneSwitchChange _ _ => true
  | .switchFault _ => true
  | .panelInControlKeyChange _ => true
  | .commissioningKeyChange _ => true
  | .lampTestChange _ => true
  | .channelSample _ _ => true
  | .inhibitExpiry _ => true
  | .alarmDelayExpiry _ => true
  | .runOnExpiry _ => true
  | .endSwitchChange _ _ _ => true
  | .travelExpiry _ => true
  | .startSpacingExpiry => true
  | .runningFeedback _ => true
  | .airflowProven _ => true
  | .driveFault _ => true
  | .runTimeout _ => true
  | .airflowTimeout _ => true
  | .airflowLoss _ => true
  | .coastExpiry _ => true
  | .rampPeriodEnd => true
  | .supplyInputChange _ _ => true
  | .settleExpiry => true
  | .minuteBoundary => true
  | .settingsWriteComplete => true
  | .characterFramingError _ => true
  | .leadByte _ => true
  | .clockSecond => true
  | .driveInputChange _ _ _ => true
  | .powerLoss => true

end Sys2Proof
end

