-- ==== Sys2Proof/Certificates/Slice0/Obligations.lean ====
section
/-! DEFINITION. The statements about the model. Those about a taken frame hold in normal operation at an address
(`State.Addressed`), those about any other command in normal operation (`State.Plain`), both while no committed settings
block waits for its application; what happens during LOADING and to a waiting block have statements of their own. -/

open Sys2Proof Sys2Proof.Machine

/-! ## Steps and frames -/

/-- A step carries out the command at the front of the queue on the state with the queue's rest; on an empty queue the
part idles (log entry 6: the queue is the model's own). -/
def Obligations.StepRunsTheFrontCommand : Prop :=
  (∀ (c : Instr) (cs : List Instr) (s : State), s.pending = c :: cs → step s = exec c { s with pending := cs }) ∧
    ∀ s : State, s.pending = [] → step s = .next s

/-- Every command completes in every state, since the spec names no rule that stops the part (log entry 28, DEDUCED). None
touches the queue of waiting commands, which is the model's own (log entry 6, DESIGN CHOICE). What each command does is
said below. -/
def Obligations.EveryCommandCompletes : Prop :=
  ∀ (c : Instr) (s : State), ∃ t, exec c s = .next t ∧ t.pending = s.pending

/-- The kind and payload of every request are read as that request, and only they (R177, R193). The kinds and payloads are
those of the request table of section 13.3, two-byte fields high byte first. -/
def Obligations.RequestsReadBack : Prop :=
  (∀ r : Request, decodeRequest r.kind r.payload = some r) ∧
  (∀ (k : Byte) (p : List Byte) (r : Request), decodeRequest k p = some r → r.kind = k ∧ r.payload = p) ∧
  ∀ (a b c : Byte) (v w : Word),
    let hi (x : Word) : Byte := .ofNat 8 (x.toNat / 256)
    let lo (x : Word) : Byte := .ofNat 8 (x.toNat % 256)
    [Request.readSummary, .readZone a, .readGroup a, .readFan a, .readChannel a, .fetchEvents, .claimExhaust a b,
      .claimShut a, .release a, .setBudget w, .clearBudget, .setClock a w b, .adjustClock, .inhibit a w, .restore a,
      .lockFan a, .unlockFan a, .resetFan a, .openEdit c, .writeItem v w, .commitEdit, .abandonEdit, .readSetting c w,
      .restart, .clearLink].map (fun r => (r.kind.toNat, r.payload)) =
    [(1, []), (2, [a]), (3, [a]), (4, [a]), (5, [a]), (6, []), (16, [a, b]), (17, [a]), (18, [a]), (19, [hi w, lo w]),
      (20, []), (21, [a, hi w, lo w, b]), (22, []), (23, [a, hi w, lo w]), (24, [a]), (25, [a]), (26, [a]), (27, [a]),
      (32, [c]), (33, [hi v, lo v, hi w, lo w]), (34, []), (35, []), (36, [c, hi w, lo w]), (48, []), (49, [])]

/-- A frame with a payload of at most 250 bytes is read back from its own bytes after the lead byte (R192). Bytes that
are read as a frame are the bytes of that frame: address, kind, length, payload and the check that their sum gives,
high byte first (R192). Bytes too few or too many for the length byte are no frame (log entry 19, DESIGN CHOICE). -/
def Obligations.FramesReadBack : Prop :=
  (∀ f : Frame, f.payload.length ≤ 250 →
     afterLead f.bytes = some (f.bytes.drop 1) ∧ parseFrame (f.bytes.drop 1) = some f) ∧
  (∀ (bs : List Byte) (f : Frame), parseFrame bs = some f → f.payload.length ≤ 250 ∧ f.bytes = leadOctet :: bs) ∧
  ∀ f : Frame,
    let summed : List Byte := [f.address, f.kind, .ofNat 8 f.payload.length] ++ f.payload
    let check : Nat := 65535 - (summed.map BitVec.toNat).sum % 65536
    f.bytes = 165#8 :: summed ++ [BitVec.ofNat 8 (check / 256), BitVec.ofNat 8 (check % 256)]

/-! ## Invariants -/

/-- The state after power-on reset meets every invariant below. That state is the model's where the spec is silent: the
records during LOADING (log entry 27) and the strap level (log entry 2) are DESIGN CHOICE, and the supply hold and the
receive queue rest on them. -/
def Obligations.ResetMeetsTheInvariants : Prop :=
  State.reset.plant.TableOk ∧ State.reset.plant.CommandsFollow ∧ State.reset.SourcesAgree ∧
    State.reset.plant.QueueOk ∧ State.reset.plant.OneStart ∧ State.reset.plant.HoldOk ∧ State.reset.InhibitsOk ∧
    State.reset.ReadingsOk ∧ State.reset.ReceiveOk ∧ State.reset.ClockOk ∧ State.reset.OutputsOk ∧
    State.reset.StatusesOk ∧ State.reset.plant.OverrideOk ∧ State.reset.WaitingOk ∧ State.reset.DutyOk

/-- Every step keeps the claim table: each list ordered by level with at most one claim of a source, each zone result
the one its list gives, and each zone at most once in the fire order list (R1, R5, R12). The result that a list gives:
IDLE with demand 0 when empty; otherwise source, level and kind are those of the head, a SHUT head gives SHUT with demand
0, and an EXHAUST head gives OPEN with the largest EXHAUST demand ahead of the first SHUT claim (R9, R10). -/
def Obligations.ClaimTableStaysRanked : Prop :=
  (∀ s t : State, s.plant.TableOk → step s = .next t → t.plant.TableOk) ∧
  resultOf [] = { directive := .idle, demand := 0, source := none, level := none, kind := none } ∧
  ∀ (c : Claim) (cs : List Claim),
    let x := resultOf (c :: cs)
    x.source = some c.source ∧ x.level = some c.level ∧
      (c.kind = .shut → x.directive = .shut ∧ x.demand = 0 ∧ x.kind = some .shut) ∧
      ∀ d, c.kind = .exhaust d → x.directive = .opened ∧ x.kind = some .exhaust ∧
        (∀ i e, (c :: cs)[i]? = some (e : Claim) → (∀ y ∈ (c :: cs).take i, y.kind ≠ .shut) →
          ∀ n, e.kind = .exhaust n → n ≤ x.demand) ∧
        ∃ i, (∃ e : Claim, (c :: cs)[i]? = some e ∧ e.kind = .exhaust x.demand) ∧
          ∀ y ∈ (c :: cs).take i, y.kind ≠ .shut

/-- Every step of a part with power keeps each damper commanded open exactly while its zone's directive is OPEN (R104). -/
def Obligations.DamperCommandsFollowDirectives : Prop :=
  ∀ s t : State, (s.mode ≠ .unpowered → s.plant.CommandsFollow) → step s = .next t →
    t.mode ≠ .unpowered → t.plant.CommandsFollow

/-- Every step keeps the claims that the panel, the fume evaluator, the link and the clock record as held equal to
those in the claim table (R63, R94, R173, R180). -/
def Obligations.SourcesStayInStep : Prop :=
  ∀ s t : State, s.SourcesAgree → step s = .next t → t.SourcesAgree

/-- Every step keeps the start queue: the QUEUED fans and no others, each once, in order of class and arrival, with any
staged entry at the head (R137, R138, R140 to R142). Where an entry that becomes FIRE meets a staged FIRE entry with a
later arrival, that order is the model's (log entry 34, DESIGN CHOICE). Every step keeps at most one fan in STARTING
(R144). -/
def Obligations.StartQueueHoldsTheQueuedFans : Prop :=
  (∀ s t : State, s.plant.QueueOk → step s = .next t → t.plant.QueueOk) ∧
  (∀ s t : State, s.plant.OneStart → step s = .next t → t.plant.OneStart)

/-- Every step of a part with power keeps the supply hold equal to what the supply record says, and no run command on
while it holds (R158, R162). What the two hold during LOADING is the model's (log entry 27, DESIGN CHOICE). -/
def Obligations.SupplyHoldStopsEveryFan : Prop :=
  ∀ s t : State, (s.mode ≠ .unpowered → s.plant.HoldOk) → step s = .next t → t.mode ≠ .unpowered → t.plant.HoldOk

/-- Every step keeps the inhibit list: at most four channels, each once, shortest remaining time first (R43). Every
step keeps the receive queue at two frames or fewer, and the receive slot empty outside normal operation (R88, R175).
Every step keeps the clock record in its ranges, and an unset clock at day 1, minute 0 and second 0 (R169). Every step
keeps, in normal operation, each group's duty order to the fans assigned to the group, each once (R117). -/
def Obligations.ListsAndClockStayInRange : Prop :=
  (∀ s t : State, s.InhibitsOk → step s = .next t → t.InhibitsOk) ∧
  (∀ s t : State, s.ReceiveOk → step s = .next t → t.ReceiveOk) ∧
  (∀ s t : State, s.ClockOk → step s = .next t → t.ClockOk) ∧
  (∀ s t : State, s.DutyOk → step s = .next t → t.DutyOk)

/-- Every step keeps each average that of its ring, and no alarm, delay or demand on a channel that is not counted
(R38, R39, R58, R61). -/
def Obligations.ReadingsFollowTheRings : Prop :=
  ∀ s t : State, s.ReadingsOk → step s = .next t → t.ReadingsOk

/-- Every step leaves, in normal operation, the trouble summary, the trouble contact, the lamps and the attention line
those that the rest of the state gives them (R85, R86, R97 to R99, R183), and every zone's smoke-control status the one
that its claims, damper and group give it (R26, R27). A step of normal operation that changes a zone's directive, demand,
winning source or smoke-control status leaves ZONE-CHANGE pending (R11, R28). -/
def Obligations.OutputsFollowTheState : Prop :=
  (∀ s t : State, s.OutputsOk → step s = .next t → t.OutputsOk) ∧
  (∀ s t : State, s.StatusesOk → step s = .next t → t.StatusesOk) ∧
  ∀ (s t : State) (z : Zone), s.mode = .normal → step s = .next t → t.mode = .normal →
    ((t.plant.zones.get z).result.directive ≠ (s.plant.zones.get z).result.directive ∨
      (t.plant.zones.get z).result.demand ≠ (s.plant.zones.get z).result.demand ∨
      (t.plant.zones.get z).result.source ≠ (s.plant.zones.get z).result.source ∨
      (t.plant.zones.get z).status ≠ (s.plant.zones.get z).status) →
    t.plant.events.zoneChange = true

/-! ## Rules on readings, windows and power -/

/-- The venting flag's hysteresis, for every reading of a channel (R55). -/
def Obligations.VentingFlagHasHysteresis : Prop :=
  ∀ (x : ChannelSetting) (v c : Nat) (e : ChannelEval),
    (x.start ≤ c → (e.evaluate x v c).venting = true) ∧
      (c < x.start → c < x.start - x.hysteresis → (e.evaluate x v c).venting = false) ∧
      (x.start - x.hysteresis ≤ c → c < x.start → (e.evaluate x v c).venting = e.venting)

/-- A reading of a channel in NORMAL; A1-PENDING is entered only from NORMAL and only by a reading at or above A1
(R57). A reading of a channel in A1-PENDING: A2 takes it to A2 and cancels the delay, one from A1 − H leaves the delay
running, and one below A1 − H takes it back to NORMAL with the delay cancelled (R58). -/
def Obligations.NormalChannelMeetsItsThresholds : Prop :=
  ∀ (x : ChannelSetting) (v c : Nat) (e : ChannelEval),
    (e.alarm = .normal →
      (x.alarm2 ≤ c → (e.evaluate x v c).alarm = .a2) ∧
        (x.alarm1 ≤ c → c < x.alarm2 → 0 < x.alarmDelay →
          (e.evaluate x v c).alarm = .a1Pending ∧ (e.evaluate x v c).delay = some x.alarmDelay) ∧
        (x.alarm1 ≤ c → c < x.alarm2 → x.alarmDelay = 0 → (e.evaluate x v c).alarm = .a1) ∧
        (c < x.alarm1 → c < x.alarm2 → (e.evaluate x v c).alarm = .normal)) ∧
    ((e.evaluate x v c).alarm = .a1Pending → e.alarm ≠ .a1Pending → e.alarm = .normal ∧ x.alarm1 ≤ c) ∧
    (e.alarm = .a1Pending →
      (x.alarm2 ≤ c → (e.evaluate x v c).alarm = .a2 ∧ (e.evaluate x v c).delay = none) ∧
        (x.alarm1 - x.hysteresis ≤ c → c < x.alarm2 →
          (e.evaluate x v c).alarm = .a1Pending ∧ (e.evaluate x v c).delay = e.delay) ∧
        (c < x.alarm1 - x.hysteresis → c < x.alarm2 →
          (e.evaluate x v c).alarm = .normal ∧ (e.evaluate x v c).delay = none))

/-- A reading of a channel in A1 or A2, with no delay started on the way (R59). -/
def Obligations.AlarmedChannelFallsByHysteresis : Prop :=
  ∀ (x : ChannelSetting) (v c : Nat) (e : ChannelEval), x.alarm1 < x.alarm2 → x.hysteresis < x.alarm1 →
    (e.alarm = .a1 → (e.evaluate x v c).delay = none ∧
      (x.alarm2 ≤ c → (e.evaluate x v c).alarm = .a2) ∧
      (x.alarm1 - x.hysteresis ≤ c → c < x.alarm2 → (e.evaluate x v c).alarm = .a1) ∧
      (c < x.alarm1 - x.hysteresis → (e.evaluate x v c).alarm = .normal)) ∧
    (e.alarm = .a2 → (e.evaluate x v c).delay = none ∧
      (x.alarm2 - x.hysteresis ≤ c → (e.evaluate x v c).alarm = .a2) ∧
      (x.alarm1 - x.hysteresis ≤ c → c < x.alarm2 - x.hysteresis → (e.evaluate x v c).alarm = .a1) ∧
      (c < x.alarm1 - x.hysteresis → (e.evaluate x v c).alarm = .normal))

/-- When a pull-out window is open at a day and minute of a set clock (R172), and which zones the open windows cover: a
SCHEDULE claim is wanted for exactly the zones in the zone mask of some open window (R173). Bit z − 1 of a zone mask
stands for zone z, bit d − 1 of a day mask for day d (section 13.5). -/
def Obligations.WindowsOpenByDayAndMinute : Prop :=
  (∀ (w : Window) (d m : Nat),
     (w.start = w.stop → w.openAt d m = false) ∧
       (w.start < w.stop → (w.openAt d m = true ↔ dayMaskHas w.days d = true ∧ w.start ≤ m ∧ m < w.stop)) ∧
       (w.stop < w.start → (w.openAt d m = true ↔
         (dayMaskHas w.days d = true ∧ w.start ≤ m) ∨
           (dayMaskHas w.days (if d = 1 then 7 else d - 1) = true ∧ m < w.stop)))) ∧
  (∀ (windows : PerWindow Window) (clock : Dck) (z : Zone), clock.isSet = true →
    ((wantedSchedule windows clock z).isSome = true ↔
      ∃ n, (windows.get n).openAt clock.day clock.minute = true ∧ maskHas (windows.get n).zones z = true)) ∧
  (∀ (m : BitVec 8) (z : Zone), maskHas m z = m.getLsbD (z.number - 1)) ∧
  ∀ (m : BitVec 7) (d : Nat), dayMaskHas m d = m.getLsbD (d - 1)

/-- The power of a fan is P × s³ / 1 000 000 rounded up, 0 at 0 and P at 100, and that of a set of fans is the sum (R122). -/
def Obligations.FanPowerIsRoundedUp : Prop :=
  (∀ P v : Nat, P * v ^ 3 ≤ power P v * 1000000 ∧ power P v * 1000000 < P * v ^ 3 + 1000000) ∧
    (∀ P : Nat, power P 0 = 0 ∧ power P 100 = P) ∧
    ∀ (cfg : Settings) (r : GroupRec) (n v : Nat),
      groupPower cfg r n v = ((r.chosen.take n).map fun c => power (cfg.fans.rated.get c.fan) v).sum

/-- Unless the fire class alone exceeds the budget in force, the fans a pass grants speeds draw at most that budget
(R125 to R129). A class served from a remainder R: when its wish fits, every chosen fan is granted its group's speed; when
it does not, the largest cap from 100 down to 20 that fits is granted, no group below its V_min; and when none fits, the
chosen fans run at V_min and fans are shed one at a time until the sum fits or none is left (R126 to R128). A group is
marked SHED when it lost a chosen fan, and CAPPED when its fans run below its speed; one with no chosen fan is marked none
(log entry 33, DESIGN CHOICE). BUDGET-SHORT is set by a pass whose fire class exceeds the budget or that curtails a group
(R130). -/
def Obligations.GrantsFitTheBudget : Prop :=
  (∀ (cfg : Settings) (p : Plant), p.supplyHold = false → (allocate cfg p).fireShort = false →
     (Group.all.map fun g => (((allocate cfg p).groups.get g).chosen.map fun c =>
       power (cfg.fans.rated.get c.fan) c.granted).sum).sum ≤ p.gal.budget) ∧
  (∀ (cfg : Settings) (cls : GroupClass) (rs : PerGroup GroupRec) (R : Nat),
     let sumAt (kept : Group → Nat) (v : Group → Nat) : Nat := (Group.all.map fun g =>
       if (rs.get g).cls = cls then (((rs.get g).chosen.take (kept g)).map fun c =>
         power (cfg.fans.rated.get c.fan) (v g)).sum else 0).sum
     let every (g : Group) : Nat := (rs.get g).chosen.length
     let wish (g : Group) : Nat := (rs.get g).speed
     let least (g : Group) : Nat := cfg.fans.vMin.get g
     let capped (c : Nat) (g : Group) : Nat := max (least g) (min (wish g) c)
     let granted (g : Group) (kept v : Nat) : List Chosen :=
       ((rs.get g).chosen.take kept).map (fun c => { c with granted := v }) ++
         ((rs.get g).chosen.drop kept).map fun c => { c with granted := 0 }
     let t := serveClass cfg cls rs R
     (∀ g, (rs.get g).cls ≠ cls → t.1.get g = rs.get g) ∧
     (sumAt every wish ≤ R → t.2 = R - sumAt every wish ∧ ∀ g, (rs.get g).cls = cls →
       t.1.get g = { rs.get g with chosen := granted g (every g) (wish g), curtailment := .none }) ∧
     (R < sumAt every wish →
       (∀ c, 20 ≤ c → c ≤ 100 → sumAt every (capped c) ≤ R →
         (∀ d, c < d → d ≤ 100 → R < sumAt every (capped d)) →
         t.2 = R - sumAt every (capped c) ∧ ∀ g, (rs.get g).cls = cls →
           t.1.get g = { rs.get g with
             chosen := granted g (every g) (capped c g)
             curtailment := if 0 < every g ∧ capped c g < wish g then .capped else .none }) ∧
       ((∀ c, 20 ≤ c → c ≤ 100 → R < sumAt every (capped c)) → ∃ (n : Nat),
         let remove (kept : PerGroup Nat) : PerGroup Nat := match shedFrom kept with
           | some g => kept.set g (kept.get g - 1)
           | none => kept
         let start : PerGroup Nat := .build fun g => if (rs.get g).cls = cls then every g else 0
         let kept := Nat.repeat remove n start
         (∀ m, m < n → R < sumAt (Nat.repeat remove m start).get least) ∧
         (sumAt kept.get least ≤ R ∨ ∀ g, kept.get g = 0) ∧
         t.2 = R - sumAt kept.get least ∧ ∀ g, (rs.get g).cls = cls →
           t.1.get g = { rs.get g with
             chosen := granted g (kept.get g) (least g)
             curtailment :=
               if kept.get g < every g then .shed else if 0 < every g ∧ least g < wish g then .capped else .none }))) ∧
  (∀ kept : PerGroup Nat,
     (shedFrom kept = none → ∀ g, kept.get g = 0) ∧
     ∀ g, shedFrom kept = some g → 0 < kept.get g ∧
       ∀ h, kept.get h ≤ kept.get g ∧ (kept.get h = kept.get g → h.number ≤ g.number)) ∧
  ∀ (cfg : Settings) (p : Plant),
    let x := allocate cfg p
    (p.supplyHold = true → x.short = false) ∧
    (p.supplyHold = false → (x.short = true ↔ x.fireShort = true ∨ ∃ g, (x.groups.get g).curtailment ≠ .none)) ∧
    (x.short = true → (runPass cfg p).events.budgetShort = true)

/-- Outside a supply hold a pass grants every chosen fan of a FIRE-class group the group's speed, whatever the budget
(R125); in a supply hold it grants every fan 0 with its fire flag clear (R124). Every pass forms each group's record
from its counted zones and its available fans in duty order: demand, class, wish, chosen fans and the unserved mark
(R113, R118, R120, R121), and outside a supply hold takes the classes in the order FIRE, HIGH, NORMAL (R125, R126). The
duty orders: a fan sent back goes to the end of its group's order, a group granted no fan now and some before moves its
lead fan to the end, and a FANS block keeps the order of the fans that stay and adds new ones in ascending number
(R117, R129). The grants: a chosen fan's is the speed granted to it, with the fire flag when that is above 0 and its
group is FIRE, every other fan's is 0 with the flag clear (R129). A pass in which every fan with its drive fault made
is granted 0 or the fire flag (of any other pass this clause says nothing; the trip under a fire override that clears
is FireFansRetryTheirStart) records the groups and the grants and hands them to the fans: each is moved by its state
and its grant (R136), its fire-override output follows (R154), the queue holds the QUEUED fans by class and each
entry's arrival, which an entry keeps as its class changes (R137, R138), and the head is launched when no fan is
STARTING, the spacing is stopped and it is FIRE or fits the budget, the new head then staged if it is FIRE or fits
(R140, R142, R144 to R147). That an entry which becomes FIRE goes ahead of a staged FIRE entry with a later arrival,
and is then the head, is the model's (R141; log entry 34, DESIGN CHOICE). -/
def Obligations.FireClassIsGrantedInFull : Prop :=
  (∀ (cfg : Settings) (p : Plant),
    (p.supplyHold = false → ∀ g c, ((allocate cfg p).groups.get g).cls = .fire →
      c ∈ ((allocate cfg p).groups.get g).chosen → c.granted = ((allocate cfg p).groups.get g).speed) ∧
    (p.supplyHold = true → ∀ f, (allocate cfg p).grants.get f = { target := 0, fire := false })) ∧
  (∀ (cfg : Settings) (p : Plant) (g : Group),
    let x := (allocate cfg p).groups.get g
    let result (z : Zone) : ZoneResult := (p.zones.get z).result
    let fireClass (z : Zone) : Prop :=
      ((result z).level = some 6 ∨ (result z).level = some 7) ∧ (result z).kind = some .exhaust
    let free := (p.gal.groups.get g).duty.filter fun f =>
      decide ((p.fan f).state ≠ .tripped ∧ (p.fan f).state ≠ .locked)
    (∀ z, z ∈ x.counted ↔ cfg.zones.group.get z = g ∧
      (fireClass z ∧ (p.dampers.get z).commandOpen = true ∨ ¬fireClass z ∧ (p.dampers.get z).state = .opened)) ∧
    (∀ z, z ∈ x.counted → (result z).demand ≤ x.demand) ∧
    (x.demand = 0 ∨ ∃ z, z ∈ x.counted ∧ (result z).demand = x.demand) ∧
    (x.cls = .fire ↔ ∃ z, z ∈ x.counted ∧ fireClass z) ∧
    (x.cls = .high ↔ (∀ z, z ∈ x.counted → ¬fireClass z ∧ (result z).level.getD 0 ≤ 4) ∧
      ∃ z, z ∈ x.counted ∧ (result z).level = some 4) ∧
    x.installed = (Fan.all.filter fun f => cfg.fans.group.get f == some g).length ∧ x.available = free.length ∧
    (x.demand = 0 → x.count = 0 ∧ x.speed = 0) ∧
    (0 < x.demand → x.installed = 0 → x.count = 0 ∧ x.speed = 0) ∧
    (0 < x.demand → 0 < x.installed → ∀ k, x.demand * x.installed ≤ 100 * k →
      100 * k < x.demand * x.installed + 100 →
      (x.available < k → x.count = x.available ∧ x.speed = 100) ∧
      (k ≤ x.available → x.count = k ∧ ∀ v, x.demand * x.installed ≤ v * k → v * k < x.demand * x.installed + k →
        x.speed = max (cfg.fans.vMin.get g) v)) ∧
    x.chosen.map Chosen.fan = free.take x.count ∧ (x.unserved = true ↔ 0 < x.demand ∧ free = []) ∧
    x.duty = (p.gal.groups.get g).duty) ∧
  (∀ (cfg : Settings) (p : Plant), p.supplyHold = false →
    let one : PerGroup GroupRec := .build fun g => { (allocate cfg p).groups.get g with
      chosen := ((allocate cfg p).groups.get g).chosen.map fun c => { c with granted := 0 }, curtailment := .none }
    let fire := (Group.all.map fun g => if (one.get g).cls = .fire then
      ((one.get g).chosen.map fun c => power (cfg.fans.rated.get c.fan) (one.get g).speed).sum else 0).sum
    let taken : PerGroup GroupRec := .build fun g => if (one.get g).cls = .fire then
      { one.get g with chosen := (one.get g).chosen.map fun c => { c with granted := (one.get g).speed } } else one.get g
    let high := serveClass cfg .high taken (p.gal.budget - fire)
    (allocate cfg p).groups = (serveClass cfg .normal high.1 high.2).1 ∧
      ((allocate cfg p).fireShort = true ↔ p.gal.budget < fire)) ∧
  (∀ (cfg : Settings) (f : Fan) (p : Plant) (g : Group),
    ((sendToBack cfg f p).gal.groups.get g).duty =
      let duty := (p.gal.groups.get g).duty
      if cfg.fans.group.get f = some g ∧ f ∈ duty then duty.filter (fun x => x != f) ++ [f] else duty) ∧
  (∀ (before now : PerGroup GroupRec) (p : Plant) (g : Group),
    let idle (r : GroupRec) : Prop := ∀ c, c ∈ r.chosen → c.granted = 0
    let duty := (p.gal.groups.get g).duty
    (¬idle (before.get g) → idle (now.get g) → ((rotate before now p).gal.groups.get g).duty =
      duty.drop 1 ++ duty.take 1) ∧
    (idle (before.get g) ∨ ¬idle (now.get g) → ((rotate before now p).gal.groups.get g).duty = duty)) ∧
  (∀ (cfg : Settings) (g : Group) (duty : List Fan), rebuildDuty cfg g duty =
    (duty.filter fun f => cfg.fans.group.get f == some g) ++
      Fan.all.filter fun f => cfg.fans.group.get f == some g && !duty.contains f) ∧
  (∀ (cfg : Settings) (p : Plant) (f : Fan),
    (∀ g, (p.gal.groups.get g).duty.Nodup ∧ ∀ h ∈ (p.gal.groups.get g).duty, cfg.fans.group.get h = some g) →
    let x := allocate cfg p
    (∀ g, ∀ c ∈ (x.groups.get g).chosen, c.fan = f → p.supplyHold = false →
      x.grants.get f = { target := c.granted, fire := decide (0 < c.granted ∧ (x.groups.get g).cls = .fire) }) ∧
    ((∀ g, ∀ c ∈ (x.groups.get g).chosen, c.fan ≠ f) → x.grants.get f = { target := 0, fire := false })) ∧
  ∀ (cfg : Settings) (p : Plant), p.QueueOk → p.HoldOk →
    let x := allocate cfg p
    (∀ f, (p.fan f).driveFault = true → (x.grants.get f).target = 0 ∨ (x.grants.get f).fire = true) →
    let t := runPass cfg p
    let moved (f : Fan) : FanRec :=
      let r := { p.fan f with target := (x.grants.get f).target, fire := (x.grants.get f).fire }
      match r.state with
      | .off | .stopping => if r.target = 0 then r else { r with state := .queued, timer := none }
      | .queued => if r.target = 0 then { r with state := .off, output := 0, run := false, timer := none } else r
      | .starting | .proving | .running =>
        if r.target = 0 then
          { r with state := .stopping, output := 0, run := false, timer := some cfg.timers.coast }
        else r
      | .tripped | .locked => r
    let after (f : Fan) : FanRec := { moved f with fireOverride := (moved f).run && (moved f).fire }
    let needed (f : Fan) : Nat := power (cfg.fans.rated.get f) (after f).target
    let drawn (fans : Fan → FanRec) : Nat := (Fan.all.map fun f => if (fans f).state.inService then
      power (cfg.fans.rated.get f) (max (fans f).output (fans f).target) else 0).sum
    let started (f : Fan) : FanRec :=
      let r := { after f with
        state := .starting, output := cfg.fanMin f, run := true, fireOverride := (after f).fire
        timer := some cfg.timers.tRun }
      if r.running = false then r
      else if r.airflow then { r with state := .running, timer := none, attempts := 0 }
      else { r with state := .proving, timer := some cfg.timers.tProve }
    let granting (r : GroupRec) : Bool := r.chosen.any fun c => decide (0 < c.granted)
    p.SameFireSide t ∧ t.gal.grants = x.grants ∧ t.gal.fireShort = x.fireShort ∧ t.fsq.budget = p.gal.budget ∧
      (∀ g,
        let duty := (p.gal.groups.get g).duty
        t.gal.groups.get g = { x.groups.get g with
          duty := if granting (p.gal.groups.get g) && !granting (x.groups.get g) then duty.drop 1 ++ duty.take 1
            else duty }) ∧
      (t.fsq.staged = match t.fsq.queue with
        | [] => none
        | e :: _ => if e.fire = true ∨ drawn t.fan + needed e.fan ≤ p.gal.budget then
            some { fan := e.fan, reservation := needed e.fan } else none) ∧
      ∃ q : List QueueEntry, (q.map QueueEntry.fan).Nodup ∧
        (∀ f, f ∈ q.map QueueEntry.fan ↔ (after f).state = .queued) ∧
        (∀ e ∈ q, e.fire = (after e.fan).fire ∧
          ((∃ o ∈ p.fsq.queue, o.fan = e.fan ∧ o.arrival = e.arrival) ∨
            (p.fan e.fan).state ≠ .queued ∧ p.fsq.nextArrival ≤ e.arrival)) ∧
        (q.Pairwise fun a b => (a.fire = true ∨ b.fire = false) ∧ (a.fire = b.fire → a.arrival ≤ b.arrival)) ∧
        (∀ a ∈ q, ∀ b ∈ q, p.fsq.nextArrival ≤ a.arrival → p.fsq.nextArrival ≤ b.arrival →
          a.fan.number < b.fan.number → a.arrival < b.arrival) ∧
        (p.fsq.spacing ≠ none ∨ (∃ f, (after f).state = .starting) ∨
          (∀ e es, q = e :: es → e.fire = false ∧ p.gal.budget < drawn after + needed e.fan) →
          t.fsq.queue = q ∧ t.fsq.spacing = p.fsq.spacing ∧ ∀ f, t.fan f = after f) ∧
        ∀ e es, q = e :: es → p.fsq.spacing = none → (∀ f, (after f).state ≠ .starting) →
          (e.fire = true ∨ drawn after + needed e.fan ≤ p.gal.budget) →
          t.fsq.queue = es ∧ t.fsq.spacing = some cfg.timers.spacing ∧ t.fan e.fan = started e.fan ∧
            ∀ f, f ≠ e.fan → t.fan f = after f

/-! ## Start-up, restart and loss of power -/

/-- POWER_ON_RESET: every block at its state of `State.reset`, the address from the straps, the settings loaded, each
block from its stored contents or, defaulted, from the factory defaults (R187). It acts in every mode (log entry 21,
DEDUCED). What the records hold during LOADING is the model's (log entry 27, DESIGN CHOICE), and a fire order list that it
finds leaves with FIRE-CHANGE (log entry 31, DEDUCED). The factory defaults, item by item (section 12.1). -/
def Obligations.PowerOnLoadsTheSettings : Prop :=
  (∀ (straps : BitVec 5) (s : State), ∃ t, exec (.powerOnReset straps) s = .next t ∧
    t = { State.reset with
      plant := { State.reset.plant with
        events := { State.reset.plant.events with fireChange := decide (s.plant.fireOrder ≠ []) } }
      bli := { State.reset.bli with straps := straps.toNat, address := straps.toNat }
      sst := t.sst, wire := s.wire, pending := s.pending } ∧
    t.sst.stored = s.sst.stored ∧ t.sst.valid = s.sst.valid ∧ t.sst.session = .none ∧
    ∀ b : Block, t.sst.defaulted.get b = !s.sst.valid.get b ∧
      t.sst.inForce.copy b = if s.sst.valid.get b then s.sst.stored.copy b else factory.copy b) ∧
  (List.range 18).map (fun i => (factory.copy .zones).item (i + 1)) =
    [1, 1, 2, 2, 3, 3, 4, 4, 2, 5, 10, 20, 40, 80, 160, 64, 255, 1].map some ∧
  (List.range 28).map (fun i => (factory.copy .fans).item (i + 1)) =
    ([1, 1, 1, 2, 2, 2, 3, 3, 3, 4, 4, 4] ++ List.replicate 12 220 ++ List.replicate 4 30).map some ∧
  (∀ c : Channel, (List.range 8).map (fun i => (factory.copy .channels).item (8 * (c.number - 1) + (i + 1))) =
    ((c.number + 1) / 2 ::
      if c.number % 2 = 1 then [1, 2500, 250, 350, 1000, 20, 60] else [2, 200, 30, 50, 100, 3, 60]).map some) ∧
  (∀ z : Zone, [1, 2, 3].map (fun i => (factory.copy .channels).item (128 + 3 * (z.number - 1) + i)) =
    [20, 300, 50].map some) ∧
  (List.range 10).map (fun i => (factory.copy .timers).item (i + 1)) = [60, 10, 30, 8, 90, 5, 10, 6, 60, 1800].map some ∧
  [1, 2].map (factory.copy .budget).item = [2000, 900].map some ∧
  ∀ w : WindowNo, [1, 2, 3, 4, 5].map (fun i => (factory.copy .windows).item (5 * (w.number - 1) + i)) =
    [0, 0, 0, 0, 10].map some

/-- LOADING_COMPLETE: normal operation begins with the panel, the supply, the drives and the dampers read from the
lines, the claims of the panel, the contact and the windows placed, and POWER-UP pending, with DAMPER-FAULT for a
damper that reads both ends and SETTINGS-DEFAULTED for a defaulted block (R29, R89, R101, R115, R161, R168, R174, R185,
R187). The order of the first claims is the model's (log entry 24, DEDUCED), and so are a FIRE-CHANGE that pends as
before (log entry 31, DEDUCED), a frame in progress that is kept (log entry 19, DESIGN CHOICE) and the scan that begins
at its first channel (log entry 26, DESIGN CHOICE). The supply is MAINS while mains-healthy is made, else GENERATOR
while generator-online is made, else TRANSFER, and outside TRANSFER a settle delay runs (R162, R168); a fan whose
running feedback is made coasts (R161); a zone switch with both lines active is at AUTO in switch fault (R92, R101). -/
def Obligations.LoadingEndsInNormalOperation : Prop :=
  ∀ (x : Lines) (s : State), s.mode = .loading → s.NothingWaits → ∃ t, exec (.loadingComplete x) s = .next t ∧
    t.mode = .normal ∧
    (let state : SupplyState := if x.mainsHealthy then .mains else if x.generatorOnline then .generator else .transfer
     t.plant.spm = {
       mainsHealthy := x.mainsHealthy, generatorOnline := x.generatorOnline, state := state
       settle := if state = .transfer then none else some s.cfg.timers.settle }) ∧
    (∀ f, t.plant.fan f = {
      state := if x.running.get f then .stopping else .off, cause := .none, target := 0, fire := false, output := 0
      run := false, fireOverride := false, attempts := 0
      timer := if x.running.get f then some s.cfg.timers.coast else none
      running := x.running.get f, airflow := x.airflow.get f, driveFault := x.driveFault.get f }) ∧
    (∀ z, t.pif.position.get z =
        (if x.exhaustLine.get z && !x.offLine.get z then .exhaust
         else if x.offLine.get z && !x.exhaustLine.get z then .off else .auto) ∧
      t.pif.switchFault.get z = (x.exhaustLine.get z && x.offLine.get z)) ∧
    (∀ z,
      let opened := x.openSwitch.get z
      let closed := x.closedSwitch.get z
      let began : Damper := {
        state := if opened && closed then .fault else if closed then .closed else .closing
        commandOpen := false
        timer := if closed then none else some s.cfg.timers.travel
        cause := if opened && closed then .disagree else .none
        openSwitch := opened, closedSwitch := closed }
      t.plant.dampers.get z =
        if (t.plant.zones.get z).result.directive = .opened then began.obey s.cfg.timers.travel true else began) ∧
    (t.plant.events.damperFault = true ↔ ∃ z, x.openSwitch.get z = true ∧ x.closedSwitch.get z = true) ∧
    (t.plant.events.settingsDefaulted = true ↔ ∃ b, s.sst.defaulted.get b = true) ∧
    t.plant.events.fireChange = s.plant.events.fireChange ∧
    (∀ z, claimOf .panel (t.plant.zones.get z).claims =
      if x.panelKey then (claimAsked (t.pif.position.get z)).map panelClaim else none) ∧
    (∀ z, claimOf .fireContact (t.plant.zones.get z).claims =
      if s.fif.contact && maskHas s.cfg.zones.contactExhaust z then some fireContactClaim else none) ∧
    (∀ z, claimOf .schedule (t.plant.zones.get z).claims =
      (wantedSchedule s.cfg.windows s.dck z).map scheduleClaim) ∧
    (∀ z src, src ≠ .panel → src ≠ .fireContact → src ≠ .schedule →
      claimOf src (t.plant.zones.get z).claims = none) ∧
    t.plant.fireOrder = [] ∧ t.plant.gal.budget = 0 ∧ t.plant.fsq.queue = [] ∧ t.plant.fsq.staged = none ∧
    t.plant.events.powerUp = true ∧
    t = { s with
      mode := .normal, plant := t.plant, pins := t.pins, fev := .blank
      scn := {
        channels := .build fun c => { ChannelRec.blank with
          condition := if (s.cfg.channels.channel.get c).zone.isSome then .active else .unused },
        inhibits := [], scanned := 0 }
      fif := { Fif.blank with contact := s.fif.contact, assembling := s.fif.assembling }
      pif := {
        position := t.pif.position, switchFault := t.pif.switchFault, panelKey := x.panelKey
        commissioningKey := x.commissioningKey, lampTest := x.lampTest, held := t.pif.held }
      dck := { s.dck with held := t.dck.held }
      bli := { Bli.blank s.bli.straps with address := s.bli.address, assembling := s.bli.assembling } }

/-- During LOADING a taken frame is answered BUSY and changes nothing more (R177, R185); the receivers go on, without
any event and without taking a zone-state frame (R88, R176, R185; that a frame's bytes come with no lead byte before
them, that wrong byte counts make no frame, and that an error with no frame in progress does nothing, is log entry 19,
DESIGN CHOICE); a kept clock goes on counting and no window is evaluated (R169, R174; log entry 22, DEDUCED), its
minute boundary being the second after 59 and MINUTE_BOUNDARY at another second without effect (log entry 15, DEDUCED);
an event of the field side, the panel or a timer has no effect (R52, R101, R115, R161, R168, R187). A part without
power takes no command but POWER_ON_RESET and POWER_LOSS (log entry 21, DEDUCED). -/
def Obligations.LoadingAnswersBusyAndTakesNoInput : Prop :=
  (∀ s : State, s.mode = .loading →
    (s.bli.address ≠ 0 → ∀ (straps : BitVec 5) (r : Request) (k : Byte) (p : List Byte),
      let busy (t : State) (kind : Byte) : State :=
        t.sendB (replyFrame s.bli.address kind { result := .busy, clamped := false, data := [] })
      exec (r.command straps) s = .next (busy s r.kind) ∧
      exec (.unknownRequest k p) s = .next (busy s k) ∧
      ∀ f fs, s.bli.queue = f :: fs → exec .bFrameTaken s = .next (busy (s.setQueue fs) f.kind)) ∧
    (∀ bs : List Byte,
      exec (.fFrameReceived (leadOctet :: bs)) s = .next { s with fif := { s.fif with assembling := false } } ∧
      let done (q : List Frame) (latch : Bool) : Host.Outcome State Fault Refusal :=
        .next { s with bli := { s.bli with assembling := false, queue := q, latch := latch } }
      (parseFrame bs = none → exec (.bFrameComplete (leadOctet :: bs)) s = done s.bli.queue s.bli.latch) ∧
      ∀ f, parseFrame bs = some f →
        (s.bli.address = 0 ∨ f.address.toNat ≠ s.bli.address →
          exec (.bFrameComplete (leadOctet :: bs)) s = done s.bli.queue s.bli.latch) ∧
        (s.bli.address ≠ 0 → f.address.toNat = s.bli.address →
          (s.bli.latch = true → f.kind ≠ 49#8 ∨ 2 ≤ s.bli.queue.length →
            exec (.bFrameComplete (leadOctet :: bs)) s = done s.bli.queue true) ∧
          (s.bli.latch = false ∨ f.kind = 49#8 → s.bli.queue.length < 2 →
            exec (.bFrameComplete (leadOctet :: bs)) s = done (s.bli.queue ++ [f]) s.bli.latch) ∧
          (s.bli.latch = false → 2 ≤ s.bli.queue.length →
            exec (.bFrameComplete (leadOctet :: bs)) s = done [] true))) ∧
    (∀ l, (s.assembling l = false → exec (.leadByte l) s = .next (s.setAssembling l true)) ∧
      ∀ c ∈ [Instr.characterFramingError l, .interbyteGapTimeout l],
        (s.assembling l = true → exec c s = .next (s.setAssembling l false)) ∧
        (s.assembling l = false → exec c s = .next s)) ∧
    (s.dck.isSet = false → exec .clockSecond s = .next s) ∧
    (s.dck.isSet = true → s.dck.second ≠ 59 →
      exec .clockSecond s = .next { s with dck := { s.dck with second := s.dck.second + 1 } }) ∧
    (s.dck.isSet = false ∨ s.dck.second ≠ 59 → exec .minuteBoundary s = .next s) ∧
    (s.dck.isSet = true → s.dck.second = 59 → ∀ c ∈ [Instr.clockSecond, .minuteBoundary],
      exec c s = .next { s with dck := { s.dck with
        second := 0, minute := if s.dck.minute = 1439 then 0 else s.dck.minute + 1
        day := if s.dck.minute = 1439 then (if s.dck.day = 7 then 1 else s.dck.day + 1) else s.dck.day } }) ∧
    ∀ (z : Zone) (f : Fan) (c : Channel) (q : BitVec 10) (b : Bool) (x : SwitchPosition) (e : EndSwitch) (i : DriveInput)
      (j : SupplyInput),
      ∀ k ∈ [Instr.bLinkSupervisionExpiry, .zoneStateFrame, .fLinkSupervisionExpiry, .generalFireContactChange b,
        .zoneSwitchChange z x, .switchFault z, .panelInControlKeyChange b, .commissioningKeyChange b,
        .lampTestChange b, .channelSample c q, .inhibitExpiry c, .alarmDelayExpiry c, .runOnExpiry z,
        .endSwitchChange z e b, .travelExpiry z, .startSpacingExpiry, .runningFeedback f, .airflowProven f,
        .driveFault f, .runTimeout f, .airflowTimeout f, .airflowLoss f, .coastExpiry f, .rampPeriodEnd,
        .supplyInputChange j b, .settleExpiry, .settingsWriteComplete, .driveInputChange f i b],
        exec k s = .next s) ∧
  ∀ (s : State) (c : Instr), s.mode = .unpowered → (∀ straps, c ≠ .powerOnReset straps) → c ≠ .powerLoss →
    exec c s = .next s

/-- RESTART: BUSY while a commit is in flight, STATE while a level-5, -6 or -7 claim stands, otherwise DONE and into LOADING
with the clock and the contact kept, the settings loaded and the straps read (R89, R169, R175, R184, R187). What the
records hold during LOADING (log entry 27) and that a frame in progress is kept (log entry 19) are DESIGN CHOICE. -/
def Obligations.RestartKeepsClockAndContact : Prop :=
  ∀ (straps : BitVec 5) (s : State), s.mode = .normal → s.bli.address ≠ 0 →
    (s.WaitingOk → s.inFlight = true → exec (.restart straps) s = .next (s.replied 48#8 (.refused .busy))) ∧
    (s.inFlight = false → s.plant.fireSide = true →
      exec (.restart straps) s = .next (s.replied 48#8 (.refused .state))) ∧
    (s.inFlight = false → s.plant.fireSide = false → exec (.restart straps) s = .next
      ({ State.reset with
        fif := { State.reset.fif with contact := s.fif.contact, assembling := s.fif.assembling }
        dck := { s.dck with held := .build fun _ => none }
        bli := { Bli.blank straps.toNat with assembling := s.bli.assembling }
        sst :=
          { s.sst with
            inForce := loadSettings s.sst.stored s.sst.valid, defaulted := s.sst.valid.clear, session := .none }
        wire := { s.wire with bLink := (replyFrame s.bli.address 48#8 .done).bytes :: s.wire.bLink }
        pending := s.pending }))

/-- POWER_LOSS: without power the trouble contact is open, and stored contents, validity markers, the strap level and,
until the power-on reset, the fire order list are kept (R19, R86, R187, R190; log entry 31, DEDUCED); every other output
has the level of an unpowered part, which is a free value (log entry 4, DESIGN CHOICE). Every claim and the edit session
are gone, and the records of sensing, fume evaluation, links, panel and clock are blank until the power-on reset (log
entry 27, DESIGN CHOICE). What is held without power of the supply, groups, start queue, events and settings in force is
left unsaid. -/
def Obligations.PowerLossKeepsTheStore : Prop :=
  ∀ s : State, ∃ t, exec .powerLoss s = .next t ∧ t.mode = .unpowered ∧ t.sst.stored = s.sst.stored ∧
    t.sst.valid = s.sst.valid ∧ t.sst.session = .none ∧ t.pins.contactOpen = true ∧
    t.plant.fireOrder = s.plant.fireOrder ∧
    (∀ z, (t.plant.zones.get z).claims = [] ∧
      (t.plant.dampers.get z).commandOpen = Config.unpoweredOutputs.damperOpen.get z) ∧
    (∀ f, (t.plant.fan f).run = Config.unpoweredOutputs.run.get f ∧
      (t.plant.fan f).output = Config.unpoweredOutputs.speed.get f ∧
      (t.plant.fan f).fireOverride = Config.unpoweredOutputs.fireOverride.get f) ∧
    t.pins.zoneLamps = Config.unpoweredOutputs.zoneLamps ∧ t.pins.groupLamps = Config.unpoweredOutputs.groupLamps ∧
    t.pins.attention = Config.unpoweredOutputs.attention ∧ t.bli = .blank s.bli.straps ∧ t.fif = .blank ∧
    t.pif = .blank ∧ t.dck = .blank ∧ t.scn = .blank ∧ t.fev = .blank ∧ t.wire = s.wire ∧ t.pending = s.pending

/-! ## The links -/

/-- B_FRAME_COMPLETE: bytes that are no frame set LINK-ERROR; a frame addressed elsewhere is passed over; one addressed
here joins a queue with room, is dropped while the overrun latch is set unless it is CLEAR-LINK, and on a full queue sets
the latch and empties the queue with LINK-ERROR (R176). That the command gives the frame's bytes with no lead byte before
it, and that bytes too few or too many for the length byte are no frame, is the model's (log entry 19, DESIGN CHOICE). -/
def Obligations.ReceiverQueuesFramesForThePart : Prop :=
  ∀ (bs : List Byte) (s : State), s.Plain →
    let done (q : List Frame) (latch : Bool) (p : Plant) : State :=
      ({ s with plant := p, bli := { s.bli with assembling := false, queue := q, latch := latch } }).refreshPins
    (parseFrame bs = none →
      exec (.bFrameComplete (leadOctet :: bs)) s = .next (done s.bli.queue s.bli.latch (s.plant.raise .linkError))) ∧
    ∀ f, parseFrame bs = some f →
      (s.bli.address = 0 ∨ f.address.toNat ≠ s.bli.address →
        exec (.bFrameComplete (leadOctet :: bs)) s = .next (done s.bli.queue s.bli.latch s.plant)) ∧
      (s.bli.address ≠ 0 → f.address.toNat = s.bli.address →
        (s.bli.latch = true → f.kind ≠ 49#8 ∨ 2 ≤ s.bli.queue.length →
          exec (.bFrameComplete (leadOctet :: bs)) s = .next (done s.bli.queue true s.plant)) ∧
        (s.bli.latch = false ∨ f.kind = 49#8 → s.bli.queue.length < 2 →
          exec (.bFrameComplete (leadOctet :: bs)) s = .next (done (s.bli.queue ++ [f]) s.bli.latch s.plant)) ∧
        (s.bli.latch = false → 2 ≤ s.bli.queue.length →
          exec (.bFrameComplete (leadOctet :: bs)) s = .next (done [] true (s.plant.raise .linkError))))

/-- LEAD_BYTE starts a frame on a waiting receiver; CHARACTER_FRAMING_ERROR and INTERBYTE_GAP_TIMEOUT end a frame in
progress, on the B-link with LINK-ERROR and on the F-link without (R71, R176, R192); with no frame in progress they do
nothing (log entry 19, DESIGN CHOICE). -/
def Obligations.BrokenFramesAreDiscarded : Prop :=
  ∀ s : State, s.Plain →
    (∀ l, s.assembling l = false → exec (.leadByte l) s = .next (s.setAssembling l true).refreshPins) ∧
    ∀ c ∈ [Instr.characterFramingError, Instr.interbyteGapTimeout],
      (s.bli.assembling = true → exec (c .bLink) s =
        .next ((s.setAssembling .bLink false).raise .linkError).refreshPins) ∧
      (s.fif.assembling = true → exec (c .fLink) s = .next (s.setAssembling .fLink false).refreshPins) ∧
      ∀ l, s.assembling l = false → exec (c l) s = .next s.refreshPins

/-- B_FRAME_TAKEN takes the head of the receive queue and carries out the request it spells exactly as that request's
command does; a frame that spells none is an UNKNOWN_REQUEST; on an empty queue nothing is taken (R177). A RESTART that is
handled so reads the strap lines (R175), whose level no operand gives: it is a free value, another for each such frame (log
entry 2, DESIGN CHOICE). That a request's command is the whole handling of its frame is the model's reading of the table
(log entry 7, DEDUCED). -/
def Obligations.TakenFrameRunsItsRequest : Prop :=
  ∀ (s : State), s.mode ≠ .unpowered →
    (s.bli.queue = [] → exec .bFrameTaken s = .next s) ∧
    ∀ f fs, s.bli.queue = f :: fs →
      (∀ r, decodeRequest f.kind f.payload = some r → r ≠ .restart ∨ s.mode = .loading ∨ s.bli.address = 0 →
        ∀ straps, ∃ t, exec .bFrameTaken s = .next t ∧ exec (r.command straps) (s.setQueue fs) = .next t) ∧
      (decodeRequest f.kind f.payload = some .restart → s.mode = .normal → s.bli.address ≠ 0 →
        ∃ t, exec .bFrameTaken s = .next t ∧ exec (.restart (Config.strapLines s.wire.restarts)) { s with
          bli := { s.bli with queue := fs }, wire := { s.wire with restarts := s.wire.restarts + 1 } } = .next t) ∧
      (decodeRequest f.kind f.payload = none → ∃ t, exec .bFrameTaken s = .next t ∧
        exec (.unknownRequest f.kind f.payload) (s.setQueue fs) = .next t)

/-- UNKNOWN_REQUEST is answered UNKNOWN, and CLEAR_LINK clears the overrun latch; both restart supervision like any
taken frame (R177, R178, R182). Requests that name a zone, group, fan or channel by a number out of range are answered
RANGE and change nothing more (R177). A reply is a frame from the part's address, of the request's kind plus 128 or a kind
of 128 and above as it is; its payload is the result byte, with CLAMPED in bit 7, and the data of a DONE reply (R192,
R193). -/
def Obligations.RefusedFramesRestartSupervision : Prop :=
  (∀ s : State, s.Addressed →
     (∀ k p, decodeRequest k p = none → exec (.unknownRequest k p) s = .next (s.replied k (.refused .unknown))) ∧
     exec .clearLink s = .next (({ s with bli := { s.bli with latch := false } }).replied 49#8 .done)) ∧
  (∀ (s : State) (n d : Byte) (w : Word), s.Addressed →
     (n.toNat < 1 ∨ 8 < n.toNat → ∀ r ∈ [Request.readZone n, .claimExhaust n d, .claimShut n, .release n],
       exec (r.command 0#5) s = .next (s.replied r.kind (.refused .range))) ∧
     (n.toNat < 1 ∨ 4 < n.toNat → exec (.readGroup n) s = .next (s.replied 3#8 (.refused .range))) ∧
     (n.toNat < 1 ∨ 12 < n.toNat → ∀ r ∈ [Request.readFan n, .lockFan n, .unlockFan n, .resetFan n],
       exec (r.command 0#5) s = .next (s.replied r.kind (.refused .range))) ∧
     (n.toNat < 1 ∨ 16 < n.toNat → ∀ r ∈ [Request.readChannel n, .inhibit n w, .restore n],
       exec (r.command 0#5) s = .next (s.replied r.kind (.refused .range)))) ∧
  (∀ (s : State) (k : Byte) (a : Answer), s.Replied (s.replied k a) k a ∧ s.replied k a = { s with
     bli := { s.bli with link := .up, timer := some s.cfg.timers.bLink }
     wire := (s.replied k a).wire, pins := (s.replied k a).pins }) ∧
  (∀ (address : Nat) (k : Byte) (a : Answer), replyFrame address k a = {
     address := .ofNat 8 address, kind := if k.toNat < 128 then .ofNat 8 (k.toNat + 128) else k
     payload := BitVec.ofNat 8 ((match a.result with
       | .done => 0 | .busy => 1 | .range => 2 | .barred => 3 | .state => 4 | .limit => 5 | .unknown => 6 | .latched => 7) +
         if a.clamped then 128 else 0) :: if a.result = .done then a.data else [] }) ∧
  (∀ (r : Result) (b : Bool) (d : List Byte), Answer.refused r = ⟨r, false, []⟩ ∧ Answer.done = ⟨.done, false, []⟩ ∧
     Answer.doneClamped b = ⟨.done, b, []⟩ ∧ Answer.doneWith d = ⟨.done, false, d⟩)

/-- Reads are answered DONE with the record they name and change nothing but the fresh flag that READ-CHANNEL clears
and the event set that FETCH-EVENTS empties (R41, R179, R183, R186). The bytes of the event set, of the trouble summary
and of each record, fan, channel, group, zone and summary, as sections 13.2 to 13.4 lay them out (R42, R85, R132,
R160); a number above its field goes in by its low bits (log entry 30, DEDUCED). -/
def Obligations.ReadsAnswerTheirRecords : Prop :=
  (∀ s : State, s.Addressed →
    exec .readSummary s = .next (s.replied 1#8 (.doneWith s.hearB.summaryRecord)) ∧
    (∀ n z, n.toNat = Zone.number z → exec (.readZone n) s = .next (s.replied 2#8 (.doneWith (s.zoneRecord z)))) ∧
    (∀ n g, n.toNat = Group.number g → exec (.readGroup n) s = .next (s.replied 3#8 (.doneWith (s.groupRecord g)))) ∧
    (∀ n f, n.toNat = Fan.number f → exec (.readFan n) s = .next (s.replied 4#8 (.doneWith (s.fanRecord f)))) ∧
    (∀ n c, n.toNat = Channel.number c → exec (.readChannel n) s =
      .next ((s.setChannel c { s.channel c with fresh := false }).replied 5#8 (.doneWith (s.channelRecord c)))) ∧
    exec .fetchEvents s = .next (({ s with plant := { s.plant with events := .empty } }).replied 6#8
      (.doneWith (word2 s.plant.events.code))) ∧
    (∀ n b i v, Block.ofNumber? n.toNat = some b → (s.sst.inForce.copy b).item (BitVec.toNat i) = some v →
      exec (.readSetting n i) s =
        .next (s.replied 36#8 (.doneWith (word2 v ++ [flagByte (s.sst.defaulted.get b)])))) ∧
    ∀ n i, ((Block.ofNumber? n.toNat).bind fun b => (s.sst.inForce.copy b).item (BitVec.toNat i)) = none →
      exec (.readSetting n i) s = .next (s.replied 36#8 (.refused .range))) ∧
  (∀ (x : Events) (y : Trouble),
    let bit (i : Nat) (b : Bool) : Nat := if b then 2 ^ i else 0
    x.code = bit 0 x.zoneChange + bit 1 x.gasAlarm + bit 2 x.channelFault + bit 3 x.fireChange + bit 4 x.damperFault +
      bit 5 x.fanTrip + bit 6 x.budgetShort + bit 7 x.supplyChange + bit 8 x.linkTrouble + bit 9 x.linkError +
      bit 10 x.settingsDone + bit 11 x.settingsDefaulted + bit 12 x.powerUp ∧
    y.code = bit 0 y.fLink + bit 1 y.channel + bit 2 y.damper + bit 3 y.fan + bit 4 y.groupUnserved +
      bit 5 y.fireBudget + bit 6 y.settings + bit 7 y.panelSwitch) ∧
  ∀ s : State, s.TroubleSays s.troubleNow ∧
    let n (x : Nat) : Byte := .ofNat 8 x
    let two (x : Nat) : List Byte := [n (x / 256), n (x % 256)]
    let left (x : Option Nat) : Nat := x.getD 0
    let bit (i : Nat) (b : Bool) : Nat := if b then 2 ^ i else 0
    let source (x : Option Source) : Byte := match x with
      | none => 0#8 | some .panel => 1#8 | some .fireLink => 2#8 | some .fireContact => 3#8 | some .adjacency => 4#8
      | some .gas => 5#8 | some .bms => 6#8 | some .schedule => 7#8
    let link (x : LinkState) : Byte := match x with | .down => 0#8 | .up => 1#8 | .lost => 2#8
    let listed := s.plant.fireOrder.map FireEntry.zone
    let limit := s.cfg.zones.originLimit
    (∀ f,
      let r := s.plant.fan f
      let queued := s.plant.fsq.queue.map QueueEntry.fan
      s.fanRecord f = [
        match r.state with
          | .off => 0#8 | .queued => 1#8 | .starting => 2#8 | .proving => 3#8 | .running => 4#8 | .stopping => 5#8
          | .tripped => 6#8 | .locked => 7#8,
        match r.cause with
          | .none => 0#8 | .runTimeout => 1#8 | .airflowTimeout => 2#8 | .airflowLoss => 3#8 | .driveFault => 4#8,
        n r.target, n r.output,
        n (bit 0 r.fire + bit 1 (s.plant.fsq.staged.any fun x => x.fan == f) + bit 2 r.running + bit 3 r.airflow +
          bit 4 r.driveFault),
        n r.attempts, n (if f ∈ queued then queued.idxOf f + 1 else 0)] ++ two (left r.timer)) ∧
    (∀ c,
      let r := s.channel c
      let e := s.eval c
      s.channelRecord c = [match r.condition with | .unused => 0#8 | .active => 1#8 | .inhibited => 2#8 | .fault => 3#8] ++
        two r.raw ++ two r.average ++
        [match e.alarm with | .normal => 0#8 | .a1Pending => 1#8 | .a1 => 2#8 | .a2 => 3#8,
          n (bit 0 r.faultHeld + bit 1 r.fresh)] ++ two (left e.delay) ++
        two (left ((s.scn.inhibits.find? fun x => x.channel == c).map Inhibit.remaining))) ∧
    (∀ g,
      let r := s.plant.gal.groups.get g
      s.groupRecord g = [
        match r.cls with | .normal => 0#8 | .high => 1#8 | .fire => 2#8,
        n r.demand, n r.installed, n r.available, n r.count, n r.speed,
        n ((match r.curtailment with | .none => 0 | .capped => 1 | .shed => 2) + bit 7 r.unserved)] ++
        (r.chosen.map fun c => [n c.fan.number, n c.granted]).flatten ++ r.duty.map fun f => n f.number) ∧
    (∀ z,
      let r := s.plant.zones.get z
      let d := s.plant.dampers.get z
      let e := s.fev.zones.get z
      s.zoneRecord z = [
        match r.result.directive with | .idle => 0#8 | .opened => 1#8 | .shut => 2#8,
        n r.result.demand, source r.result.source,
        match r.status with
          | .none => 0#8 | .pending => 1#8 | .confirmedExhaust => 2#8 | .confirmedShut => 3#8 | .failed => 4#8,
        match d.state with | .closed => 0#8 | .opening => 1#8 | .opened => 2#8 | .closing => 3#8 | .fault => 4#8,
        n (bit 0 d.commandOpen + bit 1 d.openSwitch + bit 2 d.closedSwitch +
          16 * match d.cause with | .none => 0 | .travel => 1 | .disagree => 2)] ++ two (left d.timer) ++ [
        n ((match s.pif.position.get z with | .auto => 0 | .exhaust => 1 | .off => 2) + bit 7 (s.pif.switchFault.get z)),
        n (if z ∈ listed then listed.idxOf z + 1 else 0),
        n (bit 0 (decide (z ∈ listed.take limit)) +
          bit 1 (s.plant.fireOrder.any fun x => x.zone == z && x.alarmPresent)),
        n ((e.gas.map GasClaim.level).getD 0), n ((e.gas.map GasClaim.demand).getD 0)] ++ two (left e.runOn) ++
        [0#8, 0#8, n r.claims.length] ++
        (r.claims.map fun c => [source (some c.source), n c.level,
          match c.kind with | .exhaust demand => n demand | .shut => 0#8,
          n c.origins.length] ++ c.origins.map fun o => n o.number).flatten) ∧
    s.summaryRecord = [
        match s.plant.spm.state with | .mains => 0#8 | .generator => 1#8 | .transfer => 2#8,
        n (bit 0 s.plant.spm.mainsHealthy + bit 1 s.plant.spm.generatorOnline), n (left s.plant.spm.settle)] ++
      two s.plant.gal.budget ++ two (committed s.cfg s.plant) ++ [
        n (bit 0 (s.plant.fsq.queue.isEmpty && Fan.all.all fun f => (s.plant.fan f).state != .starting)),
        link s.fif.link, n (bit 0 s.fif.contact), s.fif.lastMap, n s.troubleNow.code,
        n (bit 0 s.pif.panelKey + bit 1 s.pif.commissioningKey + bit 2 s.pif.lampTest),
        n ((Zone.all.map fun z => bit (z.number - 1) (s.pif.switchFault.get z)).sum), n s.dck.day] ++ two s.dck.minute ++ [
        n s.dck.second, n (bit 0 s.dck.isSet),
        n ((WindowNo.all.map fun w => bit (w.number - 1)
          (s.dck.isSet && (s.cfg.windows.get w).openAt s.dck.day s.dck.minute)).sum),
        link s.bli.link] ++ two (left s.bli.timer) ++ two (s.bli.cap.getD 65535) ++
      [0#8, 0#8, 0#8, 0#8, n s.plant.fireOrder.length] ++
      ((List.range s.plant.fireOrder.length).map fun i => match s.plant.fireOrder[i]? with
        | some x => [n x.zone.number, if i < limit then 1#8 else 0#8, n (bit 0 x.alarmPresent)]
        | none => []).flatten

/-! ## Claims, the budget cap and the clock -/

/-- CLAIM z EXHAUST d for d above 0, and CLAIM z SHUT: the BMS claim enters zone z's list, at most 100, with every
other list as it was, the results recomputed and the dampers commanded by them; CLAMPED exactly above 100 (R6, R11,
R180). RELEASE z, and CLAIM z EXHAUST 0: a BMS claim that is held leaves zone z's list, and with none held nothing
changes; the answer is DONE either way (R7, R180). A claim enters a list, its source's held claim gone, behind the claims of
higher levels and ahead of the rest; the claims of the sources have the levels and kinds of R3 (R3, R6, R7, R63, R94,
R173). -/
def Obligations.BmsClaimsComeAndGo : Prop :=
  (∀ (s : State) (z : Zone) (n : Byte), s.Addressed → n.toNat = z.number →
     let placed (t : State) (k : ClaimKind) : Prop :=
       s.plant.Requested s.cfg z (placeIn (bmsClaim k) (s.plant.zones.get z).claims) t.plant ∧
         t = { s with
           plant := t.plant, wire := t.wire, pins := t.pins
           bli := { s.bli with held := s.bli.held.set z (some k), link := t.bli.link, timer := t.bli.timer } }
     (∀ d : Byte, 0 < d.toNat → ∃ t, exec (.claimExhaust n d) s = .next t ∧
       placed t (.exhaust (min d.toNat 100)) ∧ s.Replied t 16#8 (.doneClamped (decide (100 < d.toNat)))) ∧
     ∃ t, exec (.claimShut n) s = .next t ∧ placed t .shut ∧ s.Replied t 17#8 .done) ∧
  (∀ (s : State) (z : Zone) (n : Byte), s.Addressed → n.toNat = z.number →
     ∀ x ∈ [(Instr.release n, 18#8), (Instr.claimExhaust n 0#8, 16#8)],
       (s.bli.held.get z = none → exec x.1 s = .next (s.replied x.2 .done)) ∧
       ((s.bli.held.get z).isSome = true → ∃ t, exec x.1 s = .next t ∧
         s.plant.Requested s.cfg z (withoutSource .bms (s.plant.zones.get z).claims) t.plant ∧
         s.Replied t x.2 .done ∧
         t = { s with
           plant := t.plant, wire := t.wire, pins := t.pins
           bli := { s.bli with held := s.bli.held.set z none, link := t.bli.link, timer := t.bli.timer } })) ∧
  (∀ (src : Source) (l : List Claim), withoutSource src l = l.filter (fun c => c.source != src) ∧
     claimOf src l = l.find? fun c => c.source == src) ∧
  (∀ (c : Claim) (l : List Claim), ∃ before after, l.filter (fun d => d.source != c.source) = before ++ after ∧
     placeIn c l = before ++ c :: after ∧ (∀ d ∈ before, c.level < d.level) ∧
     ∀ d ds, after = d :: ds → d.level ≤ c.level) ∧
  ∀ (k : ClaimKind) (g : GasClaim) (d : Nat),
    [panelClaim k, fireContactClaim, gasClaim g, bmsClaim k, scheduleClaim d] =
      [⟨.panel, 7, k, []⟩, ⟨.fireContact, 6, .exhaust 100, []⟩, ⟨.gas, g.level, .exhaust g.demand, []⟩,
        ⟨.bms, 2, k, []⟩, ⟨.schedule, 1, .exhaust d, []⟩]

/-- SET-BUDGET records the cap, at most the mains budget, CLEAR-BUDGET records none, and the budget in force follows:
on mains outside a settle delay the smaller of the mains budget and the cap (R123, R181). A BUDGET block that comes into
force sets the budget in force from its values, and changes nothing more of the plant when that leaves it as it was (R123,
R131). -/
def Obligations.BudgetCapBoundsTheBudget : Prop :=
  (∀ (s : State), s.Addressed →
    let capped (t : State) (cap : Option Nat) : Prop :=
      (setBudgetInForce s.cfg cap s.plant).SameFireSide t.plant ∧
        (s.plant.supplyHold = false → s.plant.spm.state = .mains → t.plant.gal.budget =
          min s.cfg.budget.mains (cap.getD s.cfg.budget.mains)) ∧
        t = { s with
          plant := t.plant, wire := t.wire, pins := t.pins
          bli := { s.bli with cap := cap, link := t.bli.link, timer := t.bli.timer } }
    (∀ cap : Word, ∃ t, exec (.setBudget cap) s = .next t ∧ capped t (some (min cap.toNat s.cfg.budget.mains)) ∧
      s.Replied t 19#8 (.doneClamped (decide (s.cfg.budget.mains < cap.toNat)))) ∧
    ∃ t, exec .clearBudget s = .next t ∧ capped t none ∧ s.Replied t 20#8 .done) ∧
  ∀ (s : State) (v : BudgetBlock), s.mode = .normal → s.sst.session = .committing (.budget v) false →
    let budget : Nat := if s.plant.supplyHold then 0 else match s.plant.spm.state with
      | .mains => min v.mains (s.bli.cap.getD v.mains)
      | .generator => v.generator
      | .transfer => 0
    ∃ t, exec .settingsWriteComplete s = .next t ∧ t.cfg = { s.cfg with budget := v } ∧ t.plant.gal.budget = budget ∧
      ({ s.plant with gal := { s.plant.gal with budget := budget } } : Plant).SameFireSide t.plant ∧
      (budget = s.plant.gal.budget → t.plant = s.plant.raise .settingsDone) ∧
      t = { s with plant := t.plant, sst := t.sst, pins := t.pins }

/-- SET-CLOCK takes a time in range and refuses any other with RANGE; ADJUST-CLOCK trims a set clock to the nearest minute
and is refused with STATE on an unset one; the SCHEDULE claims held are then those the windows give (R170, R171, R173).
What the windows give a zone: the largest demand among the open windows that cover it, and nothing on an unset clock
(R169, R173). A WINDOWS block that comes into force is evaluated at once (R174). -/
def Obligations.ClockRequestsSetTheWindows : Prop :=
  (∀ s : State, s.Addressed →
    let moved (t : State) (clock : Dck) : Prop :=
      s.plant.OnlySource .schedule t.plant ∧
        (∀ z, t.dck.held.get z = wantedSchedule s.cfg.windows clock z) ∧
        t = { s with
          plant := t.plant, wire := t.wire, pins := t.pins, dck := { clock with held := t.dck.held }
          bli := { s.bli with link := t.bli.link, timer := t.bli.timer } }
    (∀ (day : Byte) (minute : Word) (second : Byte),
      (1 ≤ day.toNat ∧ day.toNat ≤ 7 ∧ minute.toNat ≤ 1439 ∧ second.toNat ≤ 59 →
        ∃ t, exec (.setClock day minute second) s = .next t ∧ s.Replied t 21#8 .done ∧
          moved t { s.dck with day := day.toNat, minute := minute.toNat, second := second.toNat, isSet := true }) ∧
      (¬(1 ≤ day.toNat ∧ day.toNat ≤ 7 ∧ minute.toNat ≤ 1439 ∧ second.toNat ≤ 59) →
        exec (.setClock day minute second) s = .next (s.replied 21#8 (.refused .range)))) ∧
    (s.dck.isSet = false → exec .adjustClock s = .next (s.replied 22#8 (.refused .state))) ∧
    (s.dck.isSet = true → s.dck.second < 30 → ∃ t, exec .adjustClock s = .next t ∧ s.Replied t 22#8 .done ∧
      moved t { s.dck with second := 0 }) ∧
    (s.dck.isSet = true → 30 ≤ s.dck.second → ∃ t, exec .adjustClock s = .next t ∧ s.Replied t 22#8 .done ∧
      moved t { s.dck with
        second := 0, minute := if s.dck.minute = 1439 then 0 else s.dck.minute + 1
        day := if s.dck.minute = 1439 then (if s.dck.day = 7 then 1 else s.dck.day + 1) else s.dck.day })) ∧
  (∀ (windows : PerWindow Window) (clock : Dck) (z : Zone),
    (clock.isSet = false → wantedSchedule windows clock z = none) ∧
    (clock.isSet = true →
      let covers (n : WindowNo) : Prop :=
        (windows.get n).openAt clock.day clock.minute = true ∧ maskHas (windows.get n).zones z = true
      (wantedSchedule windows clock z = none ↔ ∀ n, ¬covers n) ∧
      ∀ d, wantedSchedule windows clock z = some d →
        (∃ n, covers n ∧ (windows.get n).demand = d) ∧ ∀ n, covers n → (windows.get n).demand ≤ d)) ∧
  ∀ (s : State) (v : PerWindow Window), s.mode = .normal → s.sst.session = .committing (.windows v) false →
    ∃ t, exec .settingsWriteComplete s = .next t ∧ t.cfg = { s.cfg with windows := v } ∧
      s.plant.OnlySource .schedule t.plant ∧ (∀ z, t.dck.held.get z = wantedSchedule v s.dck z) ∧
      t = { s with plant := t.plant, sst := t.sst, pins := t.pins, dck := { s.dck with held := t.dck.held } }

/-- CLOCK_SECOND counts one second of a set clock below second 59; at second 59 CLOCK_SECOND and MINUTE_BOUNDARY
advance the minute, with rollover, and evaluate the windows; an unset clock does not advance (R169, R173). That
CLOCK_SECOND at second 59 is the minute boundary is the model's reading (log entry 15, DEDUCED). -/
def Obligations.ClockCountsSeconds : Prop :=
  ∀ s : State, s.Plain →
    (s.dck.isSet = false → exec .clockSecond s = .next s.refreshPins ∧ exec .minuteBoundary s = .next s.refreshPins) ∧
    (s.dck.isSet = true → s.dck.second ≠ 59 → exec .clockSecond s =
      .next ({ s with dck := { s.dck with second := s.dck.second + 1 } }).refreshPins) ∧
    (s.dck.isSet = true → s.dck.second = 59 → ∀ c ∈ [Instr.clockSecond, .minuteBoundary],
      ∃ t, exec c s = .next t ∧ s.plant.OnlySource .schedule t.plant ∧
        (∀ z, t.dck.held.get z = wantedSchedule s.cfg.windows t.dck z) ∧
        t = { s with
          plant := t.plant, pins := t.pins
          dck := { s.dck with
            second := 0, minute := if s.dck.minute = 1439 then 0 else s.dck.minute + 1
            day := if s.dck.minute = 1439 then (if s.dck.day = 7 then 1 else s.dck.day + 1) else s.dck.day
            held := t.dck.held } })

/-! ## Fan service -/

/-- LOCK-FAN: STATE for a fan that holds its run command with its fire flag set, DONE without effect for a LOCKED fan, and
for every other fan LOCKED with no trip cause, no attempts, run command off and output 0, and out of the start queue
(R156). -/
def Obligations.LockTakesAFanOutOfService : Prop :=
  ∀ (s : State) (f : Fan) (n : Byte), s.Addressed → s.plant.QueueOk → n.toNat = f.number →
    ((s.plant.fan f).state.inService = true → (s.plant.fan f).fire = true →
      exec (.lockFan n) s = .next (s.replied 25#8 (.refused .state))) ∧
    ((s.plant.fan f).state = .locked → exec (.lockFan n) s = .next (s.replied 25#8 .done)) ∧
    ((s.plant.fan f).state ≠ .locked → ¬((s.plant.fan f).state.inService = true ∧ (s.plant.fan f).fire = true) →
      ∃ t, exec (.lockFan n) s = .next t ∧ s.Replied t 25#8 .done ∧ s.plant.SameFireSide t.plant ∧
        (t.plant.fan f).state = .locked ∧ (t.plant.fan f).cause = .none ∧ (t.plant.fan f).attempts = 0 ∧
        (t.plant.fan f).output = 0 ∧ (t.plant.fan f).run = false ∧ (∀ e ∈ t.plant.fsq.queue, e.fan ≠ f) ∧
        t = { s with
          plant := t.plant, wire := t.wire, pins := t.pins
          bli := { s.bli with link := t.bli.link, timer := t.bli.timer } })

/-- UNLOCK-FAN returns a LOCKED fan, and RESET-FAN a TRIPPED one, to service: it goes to OFF with no trip cause, RESET-FAN
having set its attempts to 0, and an allocation pass follows; in a supply hold, when no pass grants it a speed, it stays
there; in any other state they are refused with STATE (R117, R157). -/
def Obligations.ReturnedFansGoToOff : Prop :=
  ∀ (s : State) (f : Fan) (n : Byte), s.Addressed → s.plant.QueueOk → n.toNat = f.number →
    let back (t : State) (attempts : Nat) : Prop :=
      t.plant = runPass s.cfg (refreshStatus s.cfg (s.plant.setFan f
        { s.plant.fan f with state := .off, cause := .none, attempts := attempts })) ∧
      s.plant.SameFireSide t.plant ∧ (t.plant.fan f).state ≠ .locked ∧
        (s.plant.HoldOk → s.plant.supplyHold = true →
          (t.plant.fan f).state = .off ∧ (t.plant.fan f).cause = .none ∧ (t.plant.fan f).attempts = attempts) ∧
        t = { s with
          plant := t.plant, wire := t.wire, pins := t.pins
          bli := { s.bli with link := t.bli.link, timer := t.bli.timer } }
    ((s.plant.fan f).state ≠ .locked → exec (.unlockFan n) s = .next (s.replied 26#8 (.refused .state))) ∧
    ((s.plant.fan f).state ≠ .tripped → exec (.resetFan n) s = .next (s.replied 27#8 (.refused .state))) ∧
    ((s.plant.fan f).state = .locked → ∃ t, exec (.unlockFan n) s = .next t ∧ s.Replied t 26#8 .done ∧
      back t (s.plant.fan f).attempts) ∧
    ((s.plant.fan f).state = .tripped → ∃ t, exec (.resetFan n) s = .next t ∧ s.Replied t 27#8 .done ∧ back t 0)

/-! ## The settings store -/

/-- The edit requests by the state of the session: what OPEN-EDIT, WRITE-ITEM, COMMIT-EDIT and ABANDON-EDIT answer and
what they make of the session (R96, R188). The items of each block: which setting each number names, the range a written
value must lie in, and that a write sets its own item and no other (R188; sections 12.1 and 13.5). -/
def Obligations.EditRequestsFollowTheSession : Prop :=
  (∀ (s : State) (n : Byte) (i v : Word), s.Addressed →
    let said (k : Byte) (a : Answer) (x : Session) : Host.Outcome State Fault Refusal :=
      .next ((s.setSession x).replied k a)
    (s.sst.session = .none →
      (∀ b, Block.ofNumber? n.toNat = some b → (b.protected? = true → s.pif.commissioningKey = true) →
        exec (.openEdit n) s = said 32#8 .done (.opened (s.sst.inForce.copy b) false)) ∧
      (∀ b, Block.ofNumber? n.toNat = some b → b.protected? = true → s.pif.commissioningKey = false →
        exec (.openEdit n) s = said 32#8 (.refused .barred) .none) ∧
      (Block.ofNumber? n.toNat = none → exec (.openEdit n) s = said 32#8 (.refused .range) .none) ∧
      exec (.writeItem i v) s = said 33#8 (.refused .state) .none ∧
      exec .commitEdit s = said 34#8 (.refused .state) .none ∧
      exec .abandonEdit s = said 35#8 (.refused .state) .none) ∧
    (∀ b latch, s.sst.session = .opened b latch →
      exec (.openEdit n) s = said 32#8 (.refused .busy) (.opened b latch) ∧
      exec .abandonEdit s = said 35#8 .done .none ∧
      (latch = true → exec (.writeItem i v) s = said 33#8 (.refused .latched) (.opened b true) ∧
        exec .commitEdit s = said 34#8 (.refused .latched) (.opened b true)) ∧
      (latch = false →
        (∀ b', b.write i.toNat v.toNat = some b' → exec (.writeItem i v) s = said 33#8 .done (.opened b' false)) ∧
        (b.write i.toNat v.toNat = none →
          exec (.writeItem i v) s = said 33#8 (.refused .range) (.opened b true)))) ∧
    ∀ b, s.sst.session = .committing b false →
      exec (.openEdit n) s = said 32#8 (.refused .busy) (.committing b false) ∧
      exec (.writeItem i v) s = said 33#8 (.refused .busy) (.committing b false) ∧
      exec .commitEdit s = said 34#8 (.refused .busy) (.committing b false) ∧
      exec .abandonEdit s = said 35#8 (.refused .busy) (.committing b false)) ∧
  (∀ (b : BlockValue) (i v : Nat),
    ((b.item i).isSome = true ↔ (b.block.itemRange i).isSome = true) ∧
    ((b.write i v).isSome = true ↔ ∃ r, b.block.itemRange i = some r ∧ r.1 ≤ v ∧ v ≤ r.2) ∧
    ∀ b', b.write i v = some b' → b'.block = b.block ∧ b'.item i = some v ∧ ∀ j, j ≠ i → b'.item j = b.item j) ∧
  (∀ (x : ZonesBlock) (z : Zone), (BlockValue.zones x).item z.number = some (x.group.get z).number ∧
    (BlockValue.zones x).item (8 + z.number) = some (x.adjacency.get z).toNat ∧
    (BlockValue.zones x).item 17 = some x.contactExhaust.toNat ∧ (BlockValue.zones x).item 18 = some x.originLimit) ∧
  (∀ (x : FansBlock) (f : Fan) (g : Group),
    (BlockValue.fans x).item f.number = some (((x.group.get f).map Group.number).getD 0) ∧
    (BlockValue.fans x).item (12 + f.number) = some (x.rated.get f) ∧
    (BlockValue.fans x).item (24 + g.number) = some (x.vMin.get g)) ∧
  (∀ (x : ChannelsBlock) (c : Channel) (z : Zone),
    let a := x.channel.get c
    let k := 8 * (c.number - 1)
    let b := x.zone.get z
    let m := 128 + 3 * (z.number - 1)
    (BlockValue.channels x).item (k + 1) = some ((a.zone.map Zone.number).getD 0) ∧
    (BlockValue.channels x).item (k + 2) = some (match a.kind with | .co => 1 | .no2 => 2 | .flammable => 3) ∧
    (BlockValue.channels x).item (k + 3) = some a.fullScale ∧ (BlockValue.channels x).item (k + 4) = some a.start ∧
    (BlockValue.channels x).item (k + 5) = some a.alarm1 ∧ (BlockValue.channels x).item (k + 6) = some a.alarm2 ∧
    (BlockValue.channels x).item (k + 7) = some a.hysteresis ∧ (BlockValue.channels x).item (k + 8) = some a.alarmDelay ∧
    (BlockValue.channels x).item (m + 1) = some b.vStart ∧ (BlockValue.channels x).item (m + 2) = some b.runOn ∧
    (BlockValue.channels x).item (m + 3) = some b.faultDemand) ∧
  (∀ x : TimersBlock, [1, 2, 3, 4, 5, 6, 7, 8, 9, 10].map (BlockValue.timers x).item =
    [x.travel, x.tRun, x.tProve, x.spacing, x.coast, x.rampStep, x.settle, x.fLink, x.bLink, x.inhibit].map some) ∧
  (∀ x : BudgetBlock, [1, 2].map (BlockValue.budget x).item = [some x.mains, some x.generator]) ∧
  ∀ (x : PerWindow Window) (w : WindowNo),
    let k := 5 * (w.number - 1)
    let a := x.get w
    [k + 1, k + 2, k + 3, k + 4, k + 5].map (BlockValue.windows x).item =
      [a.days.toNat, a.start, a.stop, a.zones.toNat, a.demand].map some

/-- COMMIT-EDIT on an open session with the latch clear: the cross-field check first, then for ZONES and FANS the
condition that no level-5, -6 or -7 claim stands and every fan is OFF, TRIPPED or LOCKED; a commit that starts clears
the block's marker (R189, R190), its stored contents left as they are until the write completes (log entry 20, DESIGN
CHOICE). The cross-field check: S < A1 < A2 and H < S for every channel, no adjacency set with its own zone, and no
group with more than six fans; the other blocks have none (R189). -/
def Obligations.CommitChecksThenStarts : Prop :=
  (∀ (s : State) (b : BlockValue), s.Addressed → s.sst.session = .opened b false →
    (b.consistent = false → exec .commitEdit s =
      .next ((s.setSession (.opened b true)).replied 34#8 (.refused .range))) ∧
    (b.consistent = true → b.block.protected? = true →
      (s.plant.fireSide = true ∨ ∃ f, (s.plant.fan f).state ∉ [FanState.off, .tripped, .locked]) →
      exec .commitEdit s = .next (s.replied 34#8 (.refused .state))) ∧
    (b.consistent = true →
      (b.block.protected? = false ∨
        s.plant.fireSide = false ∧ ∀ f, (s.plant.fan f).state ∈ [FanState.off, .tripped, .locked]) →
      exec .commitEdit s = .next (({ s with
        sst := { s.sst with valid := s.sst.valid.set b.block false, session := .committing b false } }).replied
          34#8 .done))) ∧
  (∀ s : State, s.plant.fireSide = true ↔ ∃ z, ∃ c ∈ (s.plant.zones.get z).claims, 5 ≤ c.level) ∧
  (∀ b : Block, b.protected? = true ↔ b = .zones ∨ b = .fans) ∧
  (∀ x : ZonesBlock, (BlockValue.zones x).consistent = true ↔ ∀ z, maskHas (x.adjacency.get z) z = false) ∧
  (∀ x : FansBlock, (BlockValue.fans x).consistent = true ↔
    ∀ g, (Fan.all.filter fun f => x.group.get f == some g).length ≤ 6) ∧
  (∀ x : ChannelsBlock, (BlockValue.channels x).consistent = true ↔ ∀ c,
    (x.channel.get c).start < (x.channel.get c).alarm1 ∧ (x.channel.get c).alarm1 < (x.channel.get c).alarm2 ∧
      (x.channel.get c).hysteresis < (x.channel.get c).start) ∧
  ∀ b : BlockValue, b.block = .timers ∨ b.block = .budget ∨ b.block = .windows → b.consistent = true

/-- SETTINGS_WRITE_COMPLETE stores the block and makes its marker valid; the block is in force at once, no longer
defaulted, with SETTINGS-DONE, unless it is ZONES or FANS and its condition does not hold: then it waits (R190). A waiting
block waits while its condition fails, in every state that a step leaves, and a step of normal operation that leaves it
waiting no more has put it in force; so does the COAST_EXPIRY of the last fan not at rest (R190; the test at the end of
every handling is log entry 23, DEDUCED). What the blocks do to their owners: FANS rebuilds the duty orders and runs a pass
(R117, R131, R159); TIMERS rebases every running timer on its start, and one that has run out by its new duration expires
(R77, R114, R159, R167, R178; log entry 18, DEDUCED); CHANNELS restarts the channels whose zone, kind or full scale changed,
evaluates those whose thresholds changed, and recomputes every zone (R50, R67; log entry 17, DEDUCED). -/
def Obligations.WrittenBlocksComeIntoForce : Prop :=
  (∀ (s : State) (b : BlockValue), s.mode = .normal → s.sst.session = .committing b false →
     (b.block.protected? = false ∨ s.commitCondition = true →
       ∃ t, exec .settingsWriteComplete s = .next t ∧ t.plant.events.settingsDone = true ∧
         t.sst = { stored := s.sst.stored.put b, valid := s.sst.valid.set b.block true,
                   inForce := s.sst.inForce.put b, defaulted := s.sst.defaulted.set b.block false,
                   session := .none } ∧
         t.plant.fireOrder = s.plant.fireOrder ∧ t.wire = s.wire ∧ t.pif = s.pif ∧
         (∀ z src, src ∈ [Source.panel, .fireLink, .adjacency] → claimOf src (t.plant.zones.get z).claims =
           claimOf src (s.plant.zones.get z).claims)) ∧
     (b.block.protected? = true → s.commitCondition = false → exec .settingsWriteComplete s =
       .next ({ s with
         sst := { s.sst with
           stored := s.sst.stored.put b, valid := s.sst.valid.set b.block true
           session := .committing b true } }).refreshPins)) ∧
  (∀ s : State, s.commitCondition = true ↔ (∀ z, ∀ c ∈ (s.plant.zones.get z).claims, c.level < 5) ∧
     ∀ f, (s.plant.fan f).state ∈ [FanState.off, .tripped, .locked]) ∧
  (∀ s t : State, s.WaitingOk → step s = .next t → t.WaitingOk) ∧
  (∀ (s t : State) (b : BlockValue), s.mode = .normal → s.WaitingOk → s.sst.session = .committing b true →
     step s = .next t → t.mode = .normal →
     t.sst = s.sst ∨ t.plant.events.settingsDone = true ∧ t.sst = { s.sst with
       inForce := s.sst.inForce.put b, defaulted := s.sst.defaulted.set b.block false, session := .none }) ∧
  (∀ (s : State) (b : BlockValue) (f : Fan), s.mode = .normal → s.sst.session = .committing b true →
     (∀ z, ∀ c ∈ (s.plant.zones.get z).claims, c.level < 5) → (s.plant.fan f).state = .stopping →
     (s.plant.fan f).timer = some 0 → (∀ g, g ≠ f → (s.plant.fan g).state ∈ [FanState.off, .tripped, .locked]) →
     ∃ t, exec (.coastExpiry f) s = .next t ∧ t.plant.events.settingsDone = true ∧ t.sst = { s.sst with
       inForce := s.sst.inForce.put b, defaulted := s.sst.defaulted.set b.block false, session := .none }) ∧
  (∀ (s : State) (x : FansBlock), s.mode = .normal → s.sst.session = .committing (.fans x) false →
     s.commitCondition = true →
     let cfg : Settings := { s.cfg with fans := x }
     let duty (g : Group) : List Fan :=
       let kept := (s.plant.gal.groups.get g).duty.filter fun f => x.group.get f == some g
       kept ++ Fan.all.filter fun f => x.group.get f == some g && !kept.contains f
     let p : Plant := { s.plant with gal := { s.plant.gal with
       groups := .build fun g => { s.plant.gal.groups.get g with duty := duty g } } }
     ∃ t, exec .settingsWriteComplete s = .next t ∧
       t.plant = (refreshStatus cfg (runPass cfg p)).raise .settingsDone ∧
       t = { s with plant := t.plant, sst := t.sst, pins := t.pins }) ∧
  (∀ (s : State) (x : TimersBlock), s.mode = .normal → s.sst.session = .committing (.timers x) false →
     let old := s.cfg.timers
     let duration (y : TimersBlock) (state : FanState) : Nat := match state with
       | .starting => y.tRun
       | .proving => y.tProve
       | .stopping => y.coast
       | _ => 0
     let runs (was now : Nat) (y : Option Nat) : Prop := ∀ left, y = some left → was < now + left
     let moved (was now : Nat) (y : Option Nat) : Option Nat := y.map fun left => now + left - was
     let damper (z : Zone) := (s.plant.dampers.get z).timer
     let fan (f : Fan) := (s.plant.fan f).timer
     let was (f : Fan) : Nat := duration old (s.plant.fan f).state
     let now (f : Fan) : Nat := duration x (s.plant.fan f).state
     let spacing := s.plant.fsq.spacing
     let settle := s.plant.spm.settle
     ((∀ z, runs old.travel x.travel (damper z)) → (∀ f, runs (was f) (now f) (fan f)) →
       runs old.spacing x.spacing spacing → runs old.settle x.settle settle → runs old.fLink x.fLink s.fif.timer →
       runs old.bLink x.bLink s.bli.timer →
       ∃ t, exec .settingsWriteComplete s = .next t ∧
         (∀ z, t.plant.dampers.get z = { s.plant.dampers.get z with timer := moved old.travel x.travel (damper z) }) ∧
         (∀ f, t.plant.fan f = { s.plant.fan f with timer := moved (was f) (now f) (fan f) }) ∧
         t.plant.fsq.spacing = moved old.spacing x.spacing spacing ∧ t.plant.fsq.queue = s.plant.fsq.queue ∧
         t.plant.spm = { s.plant.spm with settle := moved old.settle x.settle settle } ∧
         t.plant.fireOrder = s.plant.fireOrder ∧ t.plant.gal = s.plant.gal ∧
         (∀ z, (t.plant.zones.get z).claims = (s.plant.zones.get z).claims ∧
           (t.plant.zones.get z).result = (s.plant.zones.get z).result) ∧
         t = { s with
           plant := t.plant, sst := t.sst, pins := t.pins
           fif := { s.fif with timer := moved old.fLink x.fLink s.fif.timer }
           bli := { s.bli with timer := moved old.bLink x.bLink s.bli.timer } }) ∧
     ∃ t, exec .settingsWriteComplete s = .next t ∧
       (¬runs old.fLink x.fLink s.fif.timer →
         t.fif = { s.fif with link := .lost, timer := none } ∧ t.plant.events.linkTrouble = true) ∧
       (¬runs old.bLink x.bLink s.bli.timer →
         t.bli = { s.bli with link := .lost, timer := none, held := .build fun _ => none, cap := none } ∧
           t.plant.events.linkTrouble = true) ∧
       (∀ z, ¬runs old.travel x.travel (damper z) → (s.plant.dampers.get z).travelling = true →
         t.plant.events.damperFault = true) ∧
       (∀ f, ¬runs (was f) (now f) (fan f) → (∀ g, g ≠ f → runs (was g) (now g) (fan g)) →
         (∀ z, runs old.travel x.travel (damper z)) → runs old.spacing x.spacing spacing →
         runs old.settle x.settle settle → runs old.fLink x.fLink s.fif.timer → runs old.bLink x.bLink s.bli.timer →
         ((s.plant.fan f).state = .starting ∨ (s.plant.fan f).state = .proving →
           ((s.plant.fan f).fire = false ∨ 2 ≤ (s.plant.fan f).attempts) →
           (t.plant.fan f).state = .tripped ∧ t.plant.events.fanTrip = true) ∧
         ((s.plant.fan f).state = .stopping → t.plant.fan f = { s.plant.fan f with
           state := .off, output := 0, run := false, fireOverride := false, timer := none })) ∧
       (¬runs old.settle x.settle settle → t.plant.spm.settle = none ∧ t.plant.fsq.hold = false)) ∧
  ∀ (s : State) (x : ChannelsBlock), s.mode = .normal → s.sst.session = .committing (.channels x) false →
    let old := s.cfg.channels
    let other (c : Channel) : Prop := (old.channel.get c).zone ≠ (x.channel.get c).zone ∨
      (old.channel.get c).kind ≠ (x.channel.get c).kind ∨ (old.channel.get c).fullScale ≠ (x.channel.get c).fullScale
    let same (c : Channel) : Prop := (old.channel.get c).start = (x.channel.get c).start ∧
      (old.channel.get c).alarm1 = (x.channel.get c).alarm1 ∧ (old.channel.get c).alarm2 = (x.channel.get c).alarm2 ∧
      (old.channel.get c).hysteresis = (x.channel.get c).hysteresis ∧
      (old.channel.get c).alarmDelay = (x.channel.get c).alarmDelay
    let vStart (c : Channel) : Nat := match (x.channel.get c).zone with
      | some z => (x.zone.get z).vStart
      | none => 0
    let delayed (c : Channel) (e : ChannelEval) : ChannelEval :=
      match (s.eval c).alarm, e.alarm, (s.eval c).delay with
      | .a1Pending, .a1Pending, some left =>
        if (x.channel.get c).alarmDelay + left ≤ (old.channel.get c).alarmDelay then { e with alarm := .a1, delay := none }
        else { e with delay := some ((x.channel.get c).alarmDelay + left - (old.channel.get c).alarmDelay) }
      | _, _, _ => e
    ∃ t, exec .settingsWriteComplete s = .next t ∧
      (∀ c,
        (¬other c → t.channel c = s.channel c) ∧
        (other c → (old.channel.get c).zone ≠ none → (x.channel.get c).zone = none → t.channel c = .blank) ∧
        (other c → (old.channel.get c).zone = none → (x.channel.get c).zone ≠ none → t.channel c = { s.channel c with
          condition := .active, ring := none, average := 0, outRun := 0, inRun := 0 }) ∧
        (other c → (old.channel.get c).zone ≠ none → (x.channel.get c).zone ≠ none → t.channel c = { s.channel c with
          condition := if s.scn.inhibits.any fun e => e.channel == c then .inhibited else .active
          ring := none, average := 0, outRun := 0, inRun := 0, faultHeld := false }) ∧
        (other c → t.eval c = .blank) ∧
        (¬other c → same c ∨ (s.channel c).condition ≠ .active ∨ (s.channel c).ring = none → t.eval c = s.eval c) ∧
        (¬other c → ¬same c → (s.channel c).condition = .active → (s.channel c).ring ≠ none →
          t.eval c = delayed c ((s.eval c).evaluate (x.channel.get c) (vStart c) (s.channel c).average))) ∧
      t.scn.inhibits = (s.scn.inhibits.filter fun e => (x.channel.get e.channel).zone.isSome) ∧
      (∀ z,
        let g := s.fev.zones.get z
        let standing : GasClaim := { level := 3, demand := (x.zone.get z).vStart }
        (t.zoneInA2 z = true → t.fev.zones.get z = { gas := some { level := 4, demand := 100 }, runOn := none }) ∧
        (t.zoneInA2 z = false → 0 < t.gasDemand z →
          t.fev.zones.get z = { gas := some { level := 3, demand := t.gasDemand z }, runOn := none }) ∧
        (t.zoneInA2 z = false → t.gasDemand z = 0 →
          (g.gas = none → (t.fev.zones.get z).gas = none) ∧
          (g.gas ≠ none → g.runOn = none → t.fev.zones.get z =
            if 0 < (x.zone.get z).runOn then { gas := some standing, runOn := some (x.zone.get z).runOn }
            else { gas := none, runOn := none }) ∧
          ∀ left, g.gas ≠ none → g.runOn = some left → t.fev.zones.get z =
            if (x.zone.get z).runOn + left ≤ (old.zone.get z).runOn then { gas := none, runOn := none }
            else { gas := some standing, runOn := some ((x.zone.get z).runOn + left - (old.zone.get z).runOn) })) ∧
      s.plant.OnlySource .gas t.plant ∧
      t = { s with
        plant := t.plant, fev := t.fev, sst := t.sst, pins := t.pins
        scn := { s.scn with channels := t.scn.channels, inhibits := t.scn.inhibits } }

/-! ## Supervision, the fire link and the fire contact -/

/-- The expiry of the B-link supervision: LOST with LINK-TROUBLE, every BMS claim and the cap gone, an open edit session
abandoned and a commit left alone; every other claim stands (R178, R191). -/
def Obligations.LostBLinkWithdrawsTheBms : Prop :=
  ∀ s : State, s.Plain → s.bli.link = .up → s.bli.timer = some 0 →
    ∃ t, exec .bLinkSupervisionExpiry s = .next t ∧
      t.bli = { s.bli with link := .lost, timer := none, held := .build fun _ => none, cap := none } ∧
      t.plant.events.linkTrouble = true ∧
      t.sst = { s.sst with session := match s.sst.session with
        | .opened _ _ => .none
        | x => x } ∧
      (∀ z, withoutSource .bms (t.plant.zones.get z).claims = withoutSource .bms (s.plant.zones.get z).claims) ∧
      (s.SourcesAgree → ∀ z, claimOf .bms (t.plant.zones.get z).claims = none) ∧
      t.plant.fireOrder = s.plant.fireOrder ∧ t.plant.spm = s.plant.spm ∧
      t = { s with plant := t.plant, bli := t.bli, sst := t.sst, pins := t.pins }

/-- The expiry of the F-link supervision: LOST with LINK-TROUBLE, and a FIRE-CONTACT claim placed in each zone of the
contact-exhaust set while the contact is ACTIVE; the fire order list and the map stand (R19, R75, R81). A change of the
fire contact sets FIRE-CHANGE. ACTIVE places FIRE-CONTACT claims in the contact-exhaust set unless the F-link is UP;
inactive removes every one (R79 to R81). A ZONES block that comes into force while the fallback applies places the
contact claims of its own set (R82); with the contact inactive or the F-link UP it places none, the statuses follow the
new groups, and a pass follows (R131). -/
def Obligations.ContactFallbackPlacesItsClaims : Prop :=
  (∀ s : State, s.Plain → s.fif.link = .up → s.fif.timer = some 0 →
     ∃ t, exec .fLinkSupervisionExpiry s = .next t ∧ t.plant.events.linkTrouble = true ∧
       s.plant.OnlySource .fireContact t.plant ∧
       (∀ z, (t.plant.zones.get z).claims =
         if s.fif.contact && maskHas s.cfg.zones.contactExhaust z then
           placeIn fireContactClaim (s.plant.zones.get z).claims
         else (s.plant.zones.get z).claims) ∧
       t = { s with plant := t.plant, pins := t.pins, fif := { s.fif with link := .lost, timer := none } }) ∧
  (∀ (s : State) (active : Bool), s.Plain →
     (s.fif.contact = active → exec (.generalFireContactChange active) s = .next s.refreshPins) ∧
     (s.fif.contact ≠ active → ∃ t, exec (.generalFireContactChange active) s = .next t ∧
       t.plant.events.fireChange = true ∧ s.plant.OnlySource .fireContact t.plant ∧
       (∀ z, (t.plant.zones.get z).claims =
         if active = false then withoutSource .fireContact (s.plant.zones.get z).claims
         else if s.fif.link ≠ .up ∧ maskHas s.cfg.zones.contactExhaust z = true then
           placeIn fireContactClaim (s.plant.zones.get z).claims
         else (s.plant.zones.get z).claims) ∧
       t = { s with plant := t.plant, pins := t.pins, fif := { s.fif with contact := active } })) ∧
  ∀ (s : State) (x : ZonesBlock), s.mode = .normal → s.sst.session = .committing (.zones x) false →
    s.commitCondition = true →
    let cfg : Settings := { s.cfg with zones := x }
    ∃ t, exec .settingsWriteComplete s = .next t ∧ s.plant.OnlySource .fireContact t.plant ∧
      (∀ z, (t.plant.zones.get z).claims =
        if s.fif.contact = true ∧ s.fif.link ≠ .up ∧ maskHas x.contactExhaust z = true then
          placeIn fireContactClaim (s.plant.zones.get z).claims
        else (s.plant.zones.get z).claims) ∧
      (s.fif.contact = false ∨ s.fif.link = .up →
        t.plant = (runPass cfg (refreshStatus cfg s.plant)).raise .settingsDone) ∧
      t = { s with plant := t.plant, sst := t.sst, pins := t.pins }

/-- F_FRAME_RECEIVED: a zone-state frame takes the receive slot, in place of one that waits; any other frame and bytes
that are no frame leave the slot as it was (R71, R72). That the command gives the frame's bytes with no lead byte
before it, and that bytes too few or too many for the length byte are no frame, is the model's (log entry 19, DESIGN
CHOICE), as is that the address byte is ignored and the frame waits in the slot for ZONE_STATE_FRAME (log entry 29,
DEDUCED). -/
def Obligations.ZoneStateFramesTakeTheSlot : Prop :=
  ∀ (bs : List Byte) (s : State), s.Plain →
    (∀ f flags map, parseFrame bs = some f → f.kind = 1#8 → f.payload = [flags, map] →
      exec (.fFrameReceived (leadOctet :: bs)) s = .next ({ s with
        fif := { s.fif with
          assembling := false
          slot := some { tag := flags.getLsbD 0, reset := flags.getLsbD 1, map := map } } }).refreshPins) ∧
    (parseFrame bs = none ∨ (∃ f, parseFrame bs = some f ∧ (f.kind ≠ 1#8 ∨ f.payload.length ≠ 2)) →
      exec (.fFrameReceived (leadOctet :: bs)) s =
        .next ({ s with fif := { s.fif with assembling := false } }).refreshPins)

/-- ZONE_STATE_FRAME with a new tag: the frame is recorded, the fire order list updated and its claims brought into
line, the contact claims removed as the link comes UP, and the reply sent with the state that results (R14, R16, R18,
R21, R73, R74, R83). The list: zones in ALARM that are not listed join at its tail in ascending number, each entry
takes its zone's alarm, and a reset drops those whose zone is NORMAL (R14, R15). The claims: a zone that has become
ACTIVE has its FIRE-LINK claim placed and one whose ACTIVE entry is gone has it removed (R16); when the ACTIVE zones
changed, the ADJACENCY claim of each zone follows its origins, the ACTIVE zones whose adjacency sets name it (R21,
R22). ZONE_STATE_FRAME with the tag of the frame before: the reply is sent again with REPEAT set, and nothing changes;
with no frame waiting nothing is done (R72, R84; log entry 29, DEDUCED). The bytes of the reply: tag, REPEAT,
panel-in-control key and supply state, the eight smoke-control statuses, the trouble summary, and the fire order list
with ACTIVE in bit 7 (R83). -/
def Obligations.ZoneStateFramesUpdateTheFireOrder : Prop :=
  (∀ (s : State) (f : ZoneStateFrame), s.Plain → s.fif.slot = some f → s.fif.lastTag ≠ some f.tag →
     ∃ t, exec .zoneStateFrame s = .next t ∧
       t.fif = { s.fif with
         link := .up, lastTag := some f.tag, lastMap := f.map, timer := some s.cfg.timers.fLink, slot := none } ∧
       (let was := s.plant.fireOrder.map FireEntry.zone
        let grown := was ++ Zone.all.filter fun z => maskHas f.map z && !was.contains z
        let kept := if f.reset then grown.filter (maskHas f.map) else grown
        t.plant.fireOrder = kept.map fun z => { zone := z, alarmPresent := maskHas f.map z }) ∧
       (t.plant.fireOrder ≠ s.plant.fireOrder → t.plant.events.fireChange = true) ∧
       (∀ z,
         let old := (s.plant.fireOrder.map FireEntry.zone).take s.cfg.zones.originLimit
         let new := (t.plant.fireOrder.map FireEntry.zone).take s.cfg.zones.originLimit
         let l := (s.plant.zones.get z).claims
         let l1 :=
           if z ∈ new ∧ z ∉ old then placeIn { source := .fireLink, level := 6, kind := .exhaust 100, origins := [] } l
           else if z ∈ old ∧ z ∉ new then withoutSource .fireLink l
           else l
         let origins := new.filter fun o => maskHas (s.cfg.zones.adjacency.get o) z
         let l2 :=
           if old = new then l1
           else if origins = [] then withoutSource .adjacency l1
           else if (claimOf .adjacency l1).map Claim.origins = some origins then l1
           else placeIn { source := .adjacency, level := 5, kind := .shut, origins := origins } l1
         (t.plant.zones.get z).claims = if s.fif.link = .up then l2 else withoutSource .fireContact l2) ∧
       t.plant.spm = s.plant.spm ∧
       t.wire.fLink = Frame.bytes { address := 0#8, kind := 129#8, payload := t.smokeReply f.tag false } ::
         s.wire.fLink ∧
       t = { s with plant := t.plant, fif := t.fif, pins := t.pins, wire := { s.wire with fLink := t.wire.fLink } }) ∧
  (∀ (s : State), s.Plain →
     (∀ f, s.fif.slot = some f → s.fif.lastTag = some f.tag → exec .zoneStateFrame s =
       .next ({ s with
         fif := { s.fif with slot := none }
         wire := { s.wire with
           fLink := Frame.bytes { address := 0#8, kind := 129#8, payload := s.smokeReply f.tag true } ::
             s.wire.fLink } }).refreshPins) ∧
     (s.fif.slot = none → exec .zoneStateFrame s = .next s.refreshPins)) ∧
  ∀ (s : State) (tag again : Bool),
    let n (x : Nat) : Byte := .ofNat 8 x
    let bit (i : Nat) (b : Bool) : Nat := if b then 2 ^ i else 0
    let supply : Nat := match s.plant.spm.state with | .mains => 0 | .generator => 1 | .transfer => 2
    s.TroubleSays s.troubleNow ∧
    s.smokeReply tag again = [n (bit 0 tag + bit 1 again + bit 2 s.pif.panelKey + 16 * supply)] ++
      ([Zone.z1, .z2, .z3, .z4, .z5, .z6, .z7, .z8].map fun z => match (s.plant.zones.get z).status with
        | .none => 0#8 | .pending => 1#8 | .confirmedExhaust => 2#8 | .confirmedShut => 3#8 | .failed => 4#8) ++
      [n (bit 0 s.troubleNow.fLink + bit 1 s.troubleNow.channel + bit 2 s.troubleNow.damper + bit 3 s.troubleNow.fan +
        bit 4 s.troubleNow.groupUnserved + bit 5 s.troubleNow.fireBudget + bit 6 s.troubleNow.settings +
        bit 7 s.troubleNow.panelSwitch), n s.plant.fireOrder.length] ++
      (List.range s.plant.fireOrder.length).flatMap fun i => match s.plant.fireOrder[i]? with
        | some x => [n (x.zone.number + if i < s.cfg.zones.originLimit then 128 else 0)]
        | none => []

/-! ## The panel -/

/-- ZONE_SWITCH_CHANGE records the position and ends a switch fault; under a key that is ON a new position of EXHAUST
or OFF places the zone's PANEL claim, EXHAUST at 100 or SHUT, and AUTO removes it; SWITCH_FAULT sets the fault and touches nothing else (R92,
R93, R95). PANEL_IN_CONTROL_KEY_CHANGE: ON places the PANEL claim that each switch asks for, OFF removes every PANEL
claim held, and no other claim moves (R94). -/
def Obligations.PanelClaimsFollowSwitchesAndKey : Prop :=
  (∀ (s : State) (z : Zone) (x : SwitchPosition), s.Plain →
     let pif := { s.pif with position := s.pif.position.set z x, switchFault := s.pif.switchFault.set z false }
     (s.pif.panelKey = false ∨ s.pif.position.get z = x ∨ (x = .auto ∧ s.pif.held.get z = none) →
       exec (.zoneSwitchChange z x) s = .next ({ s with pif := pif }).refreshPins) ∧
     (∀ k, claimAsked x = some k → s.pif.panelKey = true → s.pif.position.get z ≠ x →
       ∃ t, exec (.zoneSwitchChange z x) s = .next t ∧
         s.plant.Requested s.cfg z (placeIn (panelClaim k) (s.plant.zones.get z).claims) t.plant ∧
         t = { s with plant := t.plant, pins := t.pins, pif := { pif with held := s.pif.held.set z (some k) } }) ∧
     (x = .auto → s.pif.panelKey = true → s.pif.position.get z ≠ x → (s.pif.held.get z).isSome = true →
       ∃ t, exec (.zoneSwitchChange z x) s = .next t ∧
         s.plant.Requested s.cfg z (withoutSource .panel (s.plant.zones.get z).claims) t.plant ∧
         t = { s with plant := t.plant, pins := t.pins, pif := { pif with held := s.pif.held.set z none } }) ∧
     exec (.switchFault z) s =
       .next ({ s with pif := { s.pif with switchFault := s.pif.switchFault.set z true } }).refreshPins) ∧
  (∀ (s : State) (on : Bool), s.Plain →
     (s.pif.panelKey = on → exec (.panelInControlKeyChange on) s = .next s.refreshPins) ∧
     (s.pif.panelKey ≠ on → ∃ t, exec (.panelInControlKeyChange on) s = .next t ∧
       s.plant.OnlySource .panel t.plant ∧
       (on = true → ∀ z, match claimAsked (s.pif.position.get z) with
         | some k => (t.plant.zones.get z).claims = placeIn (panelClaim k) (s.plant.zones.get z).claims ∧
           t.pif.held.get z = some k
         | none => (t.plant.zones.get z).claims = (s.plant.zones.get z).claims ∧
           t.pif.held.get z = s.pif.held.get z) ∧
       (on = false → ∀ z, t.pif.held.get z = none ∧
         (t.plant.zones.get z).claims = if (s.pif.held.get z).isSome then
           withoutSource .panel (s.plant.zones.get z).claims else (s.plant.zones.get z).claims) ∧
       t = { s with
         plant := t.plant, pins := t.pins, pif := { s.pif with panelKey := on, held := t.pif.held } })) ∧
  [SwitchPosition.auto, .exhaust, .off].map claimAsked = [none, some (.exhaust 100), some .shut]

/-- COMMISSIONING_KEY_CHANGE records the key, and OFF abandons an open session of ZONES or FANS (R96, R191);
LAMP_TEST_CHANGE lights every lamp while HELD and returns each to its own state when RELEASED (R97 to R99). -/
def Obligations.KeyAndLampTestAreTaken : Prop :=
  ∀ (s : State), s.Plain →
    (∀ on, exec (.commissioningKeyChange on) s = .next ({ s with
      pif := { s.pif with commissioningKey := on }
      sst := { s.sst with session := match s.sst.session with
        | .opened b latch => if on = false ∧ b.block.protected? = true then .none else .opened b latch
        | x => x } }).refreshPins) ∧
    (∀ held, ∃ t, exec (.lampTestChange held) s = .next t ∧
      t = { s with pif := { s.pif with lampTest := held }, pins := t.pins } ∧
      (∀ z, t.ZoneLampsSay z (t.pins.zoneLamps.get z)) ∧ ∀ g, t.GroupLampsSay g (t.pins.groupLamps.get g))

/-! ## Sensing -/

/-- A sample of the channel that the scan has come to: of an ACTIVE channel of a zone, in range, it enters the ring and
is evaluated, and the zone recomputed; out of range, it is counted, and the third in a row confirms the fault with
CHANNEL-FAULT and ends the evaluation (R33 to R35, R38, R41, R54). Of a channel in FAULT of a zone: out of range it sets
the in-range run to 0; in range it raises it, and the third in a row ends the fault, primes the ring and is evaluated
(R36, R37, R39). Of an INHIBITED channel: as of an ACTIVE one while no fault is held and as of one in FAULT while one is,
but nothing is evaluated and the condition stays INHIBITED (R34, R49). The scan comes to each channel that is not UNUSED
once, in ascending number (R32); a code for any other channel, an UNUSED one among them, is no sample and has no effect
(R32; log entry 26, DESIGN CHOICE). An entry into A1 or A2 raises GAS-ALARM (R60). -/
def Obligations.SamplesDriveTheChannel : Prop :=
  (∀ (s : State) (c : Channel) (z : Zone) (q : BitVec 10), s.Plain → s.nextInScan = some c →
     (s.cfg.channels.channel.get c).zone = some z →
     let old := s.channel c
     let set := s.cfg.channels.channel.get c
     let seen : ChannelRec := { old with raw := q.toNat, fresh := true }
     let u := s.scanTo c
     (old.condition = .active → ∀ x, concentration set.fullScale q.toNat = some x →
       let ring := enterRing x old.ring
       let e := (s.eval c).evaluate set (s.cfg.channels.zone.get z).vStart ring.mean
       exec (.channelSample c q) s = .next ((((u.setChannel c
         { seen with ring := some ring, average := ring.mean, outRun := 0 }).setEval c e).onPlant fun p =>
           p.raiseIf (entersAlarm (s.eval c).alarm e.alarm) .gasAlarm).recomputeZone z).refreshPins) ∧
     (old.condition = .active → concentration set.fullScale q.toNat = none → old.outRun < 2 →
       exec (.channelSample c q) s =
         .next (u.setChannel c { seen with outRun := old.outRun + 1 }).refreshPins) ∧
     (old.condition = .active → concentration set.fullScale q.toNat = none → 2 ≤ old.outRun →
       exec (.channelSample c q) s = .next (((((u.setChannel c
         { seen with condition := .fault, faultHeld := false, ring := none, average := 0, inRun := 0, outRun := 3 }).setEval
           c .blank).recomputeZone z).raise .channelFault)).refreshPins) ∧
     (old.condition = .fault → concentration set.fullScale q.toNat = none → exec (.channelSample c q) s =
       .next (u.setChannel c { seen with inRun := 0, outRun := 3 }).refreshPins) ∧
     (old.condition = .fault → ∀ x, concentration set.fullScale q.toNat = some x →
       (old.inRun < 2 → exec (.channelSample c q) s =
         .next (u.setChannel c { seen with inRun := old.inRun + 1, outRun := 0 }).refreshPins) ∧
       (2 ≤ old.inRun → ∃ t, exec (.channelSample c q) s = .next t ∧
         t.channel c = { seen with
           condition := .active, faultHeld := false, ring := some ⟨x, x, x, x⟩, average := x, inRun := 0, outRun := 0 } ∧
         t.eval c = (s.eval c).evaluate set (s.cfg.channels.zone.get z).vStart x ∧
         (∀ d, d ≠ c → t.channel d = s.channel d ∧ t.eval d = s.eval d) ∧
         s.plant.OnlySource .gas t.plant ∧
         t = { s with
           plant := t.plant, pins := t.pins, fev := t.fev
           scn := { s.scn with channels := t.scn.channels, scanned := c.number } }))) ∧
  (∀ (s : State) (c : Channel) (q : BitVec 10), s.Plain → s.nextInScan = some c →
     (s.channel c).condition = .inhibited →
     let old := s.channel c
     let range := concentration (s.cfg.channels.channel.get c).fullScale q.toNat
     let seen : ChannelRec := { old with raw := q.toNat, fresh := true }
     let left (r : ChannelRec) : Host.Outcome State Fault Refusal := .next ((s.scanTo c).setChannel c r).refreshPins
     (old.faultHeld = false → ∀ x, range = some x → exec (.channelSample c q) s = left { seen with
       ring := some (enterRing x old.ring), average := (enterRing x old.ring).mean, outRun := 0 }) ∧
     (old.faultHeld = false → range = none → old.outRun < 2 →
       exec (.channelSample c q) s = left { seen with outRun := old.outRun + 1 }) ∧
     (old.faultHeld = false → range = none → 2 ≤ old.outRun → exec (.channelSample c q) s =
       .next (((s.scanTo c).setChannel c { seen with
         faultHeld := true, ring := none, average := 0, inRun := 0, outRun := 3 }).raise .channelFault).refreshPins) ∧
     (old.faultHeld = true → range = none → exec (.channelSample c q) s = left { seen with inRun := 0, outRun := 3 }) ∧
     (old.faultHeld = true → ∀ x, range = some x →
       (old.inRun < 2 → exec (.channelSample c q) s = left { seen with inRun := old.inRun + 1, outRun := 0 }) ∧
       (2 ≤ old.inRun → exec (.channelSample c q) s = left { seen with
         faultHeld := false, ring := some ⟨x, x, x, x⟩, average := x, inRun := 0, outRun := 0 }))) ∧
  (∀ (s : State) (c : Channel) (q : BitVec 10), s.Plain →
     (s.nextInScan ≠ some c → exec (.channelSample c q) s = .next s.refreshPins) ∧
     ((s.channel c).condition = .unused → exec (.channelSample c q) s = .next s.refreshPins)) ∧
  (∀ (s : State) (c : Channel), s.nextInScan = some c ↔ s.scn.scanned < c.number ∧ (s.channel c).condition ≠ .unused ∧
     ∀ d, s.scn.scanned < d.number → d.number < c.number → (s.channel d).condition = .unused) ∧
  (∀ fs q : Nat,
     (q < 128 ∨ 840 < q → concentration fs q = none) ∧ (128 ≤ q → q < 160 → concentration fs q = some 0) ∧
     (160 ≤ q → q ≤ 800 → concentration fs q = some ((q - 160) * fs / 640)) ∧
     (800 < q → q ≤ 840 → concentration fs q = some fs)) ∧
  (∀ a b : AlarmState, entersAlarm a b = true ↔ a ≠ b ∧ (b = .a1 ∨ b = .a2)) ∧
  ∀ (x : Nat) (r : Ring), enterRing x none = ⟨x, x, x, x⟩ ∧
    enterRing x (some r) = ⟨r.second, r.third, r.newest, x⟩ ∧
    r.mean = (r.first + r.second + r.third + r.newest + 2) / 4

/-- The GAS claim of a zone that FEV recomputes: level 4 at 100 while a counted channel is in A2, else level 3 at the zone's
demand while that is above 0, else at V_start while the run-on that then starts is running, else none (R62 to R65). A
channel is in A2 for its zone while it is ACTIVE with a primed ring; the zone's demand is the largest of the demands of
such channels and, while a channel is in FAULT, of the fault demand (R62). A channel's demand: 0 with the venting flag
clear, V_start below S, 100 from A2, and between them V_start and a share of what is left, rounded up (R56). -/
def Obligations.GasClaimFollowsTheChannels : Prop :=
  (∀ (s : State) (z : Zone), claimOf .gas (s.plant.zones.get z).claims = (s.fev.zones.get z).gas.map gasClaim →
    let t := s.recomputeZone z
    let runOn := (s.cfg.channels.zone.get z).runOn
    let standing : GasClaim := { level := 3, demand := (s.cfg.channels.zone.get z).vStart }
    claimOf .gas (t.plant.zones.get z).claims = (t.fev.zones.get z).gas.map gasClaim ∧
    s.plant.OnlySource .gas t.plant ∧
    (s.zoneInA2 z = true → t.fev.zones.get z = { gas := some { level := 4, demand := 100 }, runOn := none }) ∧
    (s.zoneInA2 z = false → 0 < s.gasDemand z →
      t.fev.zones.get z = { gas := some { level := 3, demand := s.gasDemand z }, runOn := none }) ∧
    (s.zoneInA2 z = false → s.gasDemand z = 0 →
      ((s.fev.zones.get z).gas = none → t = s) ∧
      (∀ g, (s.fev.zones.get z).gas = some g →
        (∀ n, (s.fev.zones.get z).runOn = some n →
          t.fev.zones.get z = { gas := some standing, runOn := some n }) ∧
        ((s.fev.zones.get z).runOn = none → 0 < runOn →
          t.fev.zones.get z = { gas := some standing, runOn := some runOn }) ∧
        ((s.fev.zones.get z).runOn = none → runOn = 0 → t.fev.zones.get z = { gas := none, runOn := none })))) ∧
  (∀ (s : State) (z : Zone),
    let counted (c : Channel) : Prop := (s.cfg.channels.channel.get c).zone = some z ∧
      (s.channel c).condition = .active ∧ (s.channel c).ring ≠ none
    let faulty : Prop := ∃ c, (s.cfg.channels.channel.get c).zone = some z ∧ (s.channel c).condition = .fault
    (s.zoneInA2 z = true ↔ ∃ c, counted c ∧ (s.eval c).alarm = .a2) ∧
    (∀ c, counted c → (s.eval c).demand ≤ s.gasDemand z) ∧
    (faulty → (s.cfg.channels.zone.get z).faultDemand ≤ s.gasDemand z) ∧
    (s.gasDemand z = 0 ∨ (∃ c, counted c ∧ (s.eval c).demand = s.gasDemand z) ∨
      faulty ∧ (s.cfg.channels.zone.get z).faultDemand = s.gasDemand z)) ∧
  ∀ (x : ChannelSetting) (v c : Nat) (e : ChannelEval), x.start < x.alarm2 →
    let t := e.evaluate x v c
    (t.venting = false → t.demand = 0) ∧ (t.venting = true → c < x.start → t.demand = v) ∧
      (x.alarm2 ≤ c → t.demand = 100) ∧
      (x.start ≤ c → c < x.alarm2 → ∃ n, t.demand = v + n ∧
        (c - x.start) * (100 - v) ≤ n * (x.alarm2 - x.start) ∧
        n * (x.alarm2 - x.start) < (c - x.start) * (100 - v) + (x.alarm2 - x.start))

/-- The expiry of an alarm delay takes the channel to A1 with GAS-ALARM (R58, R60); the expiry of a run-on with no demand
left takes the zone's GAS claim away (R65). -/
def Obligations.DelaysAndRunOnsExpire : Prop :=
  ∀ (s : State), s.Plain →
    (∀ c, (s.eval c).alarm = .a1Pending → (s.eval c).delay = some 0 → exec (.alarmDelayExpiry c) s =
      .next ((s.setEval c { s.eval c with alarm := .a1, delay := none }).raise .gasAlarm).refreshPins) ∧
    (∀ z, (s.fev.zones.get z).runOn = some 0 → s.zoneInA2 z = false → s.gasDemand z = 0 →
      (s.fev.zones.get z).gas.isSome = true → ∃ t, exec (.runOnExpiry z) s = .next t ∧
        s.plant.Requested s.cfg z (withoutSource .gas (s.plant.zones.get z).claims) t.plant ∧
        t = { s with
          plant := t.plant, pins := t.pins
          fev := { s.fev with zones := s.fev.zones.set z { gas := none, runOn := none } } })

/-- INHIBIT: STATE for an UNUSED channel; a listed one is renewed; LIMIT on a full list; otherwise the channel is INHIBITED,
a fault it was in is held, its evaluation ends, and it stands in the list (R43 to R45, R61). An entry enters the list
behind those with the same or less time, and no other entry moves (R43). -/
def Obligations.InhibitTakesAChannelOut : Prop :=
  (∀ (s : State) (c : Channel) (n : Byte) (w : Word), s.Addressed → n.toNat = c.number →
    let time := if w.toNat = 0 then s.cfg.timers.inhibit else max 60 (min w.toNat 3600)
    let clamped := decide (w.toNat ≠ 0 ∧ (w.toNat < 60 ∨ 3600 < w.toNat))
    let entered (l : List Inhibit) := enterInhibit { channel := c, remaining := time } l
    ((s.channel c).condition = .unused → exec (.inhibit n w) s = .next (s.replied 23#8 (.refused .state))) ∧
    ((s.channel c).condition ≠ .unused → s.listed c = true → exec (.inhibit n w) s =
      .next ((s.setInhibits (entered (s.scn.inhibits.filter fun e => e.channel != c))).replied 23#8
        (.doneClamped clamped))) ∧
    ((s.channel c).condition ≠ .unused → s.listed c = false → 4 ≤ s.scn.inhibits.length →
      exec (.inhibit n w) s = .next (s.replied 23#8 (.refused .limit))) ∧
    ((s.channel c).condition ≠ .unused → s.listed c = false → s.scn.inhibits.length < 4 →
      ∃ t, exec (.inhibit n w) s = .next t ∧ s.Replied t 23#8 (.doneClamped clamped) ∧
        t.scn = { s.scn with
          channels := s.scn.channels.set c { s.channel c with
            condition := .inhibited, faultHeld := (s.channel c).condition == .fault },
          inhibits := entered s.scn.inhibits } ∧
        t.fev.channels = s.fev.channels.set c .blank ∧ s.plant.OnlySource .gas t.plant ∧
        t = { s with
          plant := t.plant, scn := t.scn, fev := t.fev, wire := t.wire, pins := t.pins
          bli := { s.bli with link := t.bli.link, timer := t.bli.timer } })) ∧
  ∀ (e : Inhibit) (l : List Inhibit), (enterInhibit e l).Perm (e :: l) ∧
    ∃ before after, l = before ++ after ∧ enterInhibit e l = before ++ e :: after ∧
      (∀ x ∈ before, x.remaining ≤ e.remaining) ∧ ∀ x xs, after = x :: xs → e.remaining < x.remaining

/-- RESTORE of a listed channel, and the expiry of its time: the entry leaves the list, and the channel is in FAULT when a
fault was held, otherwise ACTIVE and evaluated at once from its average when its ring is primed; RESTORE of an unlisted
channel is refused with STATE (R46 to R48, R61). -/
def Obligations.InhibitsEnd : Prop :=
  ∀ (s : State) (c : Channel) (z : Zone) (n : Byte), n.toNat = c.number →
    (s.cfg.channels.channel.get c).zone = some z →
    let old := s.channel c
    let ended (t : State) : Prop :=
      t.scn = { s.scn with
          channels := s.scn.channels.set c (if old.faultHeld then
            { old with condition := .fault, faultHeld := false } else { old with condition := .active }),
          inhibits := s.scn.inhibits.filter fun e => e.channel != c } ∧
        (old.faultHeld = true → t.fev.channels = s.fev.channels.set c .blank) ∧
        (old.faultHeld = false → old.ring.isSome = true → t.fev.channels = s.fev.channels.set c
          ((s.eval c).evaluate (s.cfg.channels.channel.get c) (s.cfg.channels.zone.get z).vStart old.average)) ∧
        (old.faultHeld = false → old.ring = none → t.fev.channels = s.fev.channels) ∧
        s.plant.OnlySource .gas t.plant
    (s.Addressed → s.listed c = false → exec (.restore n) s = .next (s.replied 24#8 (.refused .state))) ∧
    (s.Addressed → s.listed c = true → ∃ t, exec (.restore n) s = .next t ∧ s.Replied t 24#8 .done ∧ ended t ∧
      t = { s with
        plant := t.plant, scn := t.scn, fev := t.fev, wire := t.wire, pins := t.pins
        bli := { s.bli with link := t.bli.link, timer := t.bli.timer } }) ∧
    (s.Plain → (⟨c, 0⟩ : Inhibit) ∈ s.scn.inhibits → ∃ t, exec (.inhibitExpiry c) s = .next t ∧ ended t ∧
      t = { s with plant := t.plant, scn := t.scn, fev := t.fev, pins := t.pins })

/-! ## Dampers -/

/-- A change of an end switch: the new reading takes the damper to its commanded end, to FAULT with DAMPER-FAULT, or
back to travel, by its state; every other damper, every claim and the supply stand (R103, R107, R109 to R111). The
expiry of a damper's travel: FAULT with cause TRAVEL and DAMPER-FAULT, the command kept (R108). The reading is AT-OPEN with
the open switch alone made, AT-CLOSED with the closed switch alone, BETWEEN with neither, DISAGREE with both (R103). -/
def Obligations.SwitchesAndTravelMoveTheDamper : Prop :=
  (∀ (s : State) (z : Zone) (switch : EndSwitch) (made : Bool), s.Plain →
     (s.plant.dampers.get z).level switch ≠ made → ∃ t, exec (.endSwitchChange z switch made) s = .next t ∧
       (let old := s.plant.dampers.get z
        let d := old.setSwitch switch made
        let new := t.plant.dampers.get z
        let atEnd : Damper := { d with state := if d.commandOpen then .opened else .closed, timer := none, cause := .none }
        let failed : Damper := { d with state := .fault, timer := none, cause := .disagree }
        (old.state = .opening ∨ old.state = .closing →
          new = if d.reading = d.commandedEnd then atEnd else if d.reading = .disagree then failed else d) ∧
        (old.state = .fault → new = if d.reading = d.commandedEnd then atEnd else d) ∧
        (old.state = .opened → new = if d.reading = .atOpen then d else if d.reading = .disagree then failed else
          { d with
            state := if d.commandOpen then .opening else .closing, timer := some s.cfg.timers.travel, cause := .none }) ∧
        (old.state = .closed → new = if d.reading = .atClosed then d else if d.reading = .disagree then failed else
          { d with
            state := if d.commandOpen then .opening else .closing, timer := some s.cfg.timers.travel, cause := .none }) ∧
        (new.state = .fault → old.state ≠ .fault → t.plant.events.damperFault = true)) ∧
       (∀ y, y ≠ z → t.plant.dampers.get y = s.plant.dampers.get y) ∧
       (∀ y, (t.plant.zones.get y).claims = (s.plant.zones.get y).claims ∧
         (t.plant.zones.get y).result = (s.plant.zones.get y).result) ∧
       t.plant.fireOrder = s.plant.fireOrder ∧ t.plant.spm = s.plant.spm ∧ t.plant.gal.budget = s.plant.gal.budget ∧
       t = { s with plant := t.plant, pins := t.pins }) ∧
  (∀ (s : State) (z : Zone), s.Plain → (s.plant.dampers.get z).travelling = true →
     (s.plant.dampers.get z).timer = some 0 → ∃ t, exec (.travelExpiry z) s = .next t ∧
       t.plant.dampers.get z = { s.plant.dampers.get z with state := .fault, timer := none, cause := .travel } ∧
       t.plant.events.damperFault = true ∧ (∀ y, y ≠ z → t.plant.dampers.get y = s.plant.dampers.get y) ∧
       (∀ y, (t.plant.zones.get y).claims = (s.plant.zones.get y).claims) ∧
       t.plant.spm = s.plant.spm ∧ t = { s with plant := t.plant, pins := t.pins }) ∧
  (∀ d : Damper, d.reading = (if d.openSwitch then if d.closedSwitch then .disagree else .atOpen
     else if d.closedSwitch then .atClosed else .between) ∧ d.commandedEnd = if d.commandOpen then .atOpen else .atClosed) ∧
  ∀ (d : Damper) (b : Bool), d.setSwitch .openEnd b = { d with openSwitch := b } ∧
    d.setSwitch .closedEnd b = { d with closedSwitch := b } ∧ d.level .openEnd = d.openSwitch ∧
    d.level .closedEnd = d.closedSwitch

/-- A damper under a new command: it sets out for the new end with a full travel time, from CLOSED, OPEN, either travel or a
TRAVEL fault, and is there at once when it still reads that end; a damper whose reading is DISAGREE and which is in FAULT
takes the command and stays (R105 to R107, R111). -/
def Obligations.DampersObeyNewCommands : Prop :=
  ∀ (travel : Nat) (toOpen : Bool) (d : Damper),
    let e := d.obey travel toOpen
    e.openSwitch = d.openSwitch ∧ e.closedSwitch = d.closedSwitch ∧ e.commandOpen = toOpen ∧
    (d.commandOpen = toOpen → e = d) ∧
    (d.commandOpen ≠ toOpen →
      (d.state = .fault → d.reading = .disagree → e = { d with commandOpen := toOpen }) ∧
      (d.reading ≠ .disagree → d.reading ≠ (if toOpen then .atOpen else .atClosed) →
        e = { d with
          commandOpen := toOpen, state := if toOpen then .opening else .closing, timer := some travel, cause := .none }) ∧
      (d.reading = (if toOpen then .atOpen else .atClosed) →
        e = { d with commandOpen := toOpen, state := if toOpen then .opened else .closed, timer := none, cause := .none }))

/-! ## Fans -/

/-- The head entry is launched when nothing stands in its way: the fan is in STARTING with its run command on, its output
at V_min and its timer at T_run, the spacing starts, and no other fan is started: by START_SPACING_EXPIRY, and by the
RAMP_PERIOD_END at which the spacing stops (R143 to R146; log entry 5, DESIGN CHOICE). A fan's grant by its state: OFF and
STOPPING join the queue, QUEUED leaves it for OFF at 0, STARTING, PROVING and RUNNING coast down at 0, TRIPPED and LOCKED
only record it (R136); a FIRE entry joins behind the FIRE entries and ahead of the others and unstages a staged NORMAL
entry, any other joins at the tail (R137, R141). The re-test of a pass gives every entry the class of its fan and its place
by class and arrival, and unstages a staged entry that is not at the head, or is NORMAL and does not fit (R138, R142; log
entry 34, DESIGN CHOICE). -/
def Obligations.QueueHeadIsLaunched : Prop :=
  (∀ (s : State) (e : QueueEntry) (es : List QueueEntry), s.Plain → s.plant.QueueOk → s.plant.fsq.queue = e :: es →
    s.plant.fsq.spacing = none → s.plant.fsq.hold = false → (∀ f, (s.plant.fan f).state ≠ .starting) →
    (s.plant.fsq.staged ≠ none ∨ e.fire = true ∨
      committed s.cfg s.plant + reservation s.cfg s.plant e.fan ≤ s.plant.fsq.budget) →
    (s.plant.fan e.fan).running = false →
    ((s.plant.fan e.fan).driveFault = false ∨ (s.plant.fan e.fan).fire = true) →
    ∃ t, exec .startSpacingExpiry s = .next t ∧
      t.plant.fan e.fan = { s.plant.fan e.fan with
        state := .starting, output := s.cfg.fanMin e.fan, run := true, fireOverride := (s.plant.fan e.fan).fire
        timer := some s.cfg.timers.tRun } ∧
      (∀ f, f ≠ e.fan → t.plant.fan f = s.plant.fan f) ∧ t.plant.fsq.queue = es ∧
      t.plant.fsq.spacing = some s.cfg.timers.spacing ∧ s.plant.SameFireSide t.plant ∧ t.plant.gal = s.plant.gal ∧
      t = { s with plant := t.plant, pins := t.pins }) ∧
  (∀ (s : State) (e : QueueEntry) (es : List QueueEntry), s.Plain → s.plant.QueueOk → s.plant.fsq.queue = e :: es →
    (s.plant.fsq.spacing = none ∨ ∃ n, n ≤ 1 ∧ s.plant.fsq.spacing = some n) → s.plant.fsq.hold = false →
    (∀ f, (s.plant.fan f).state ≠ .starting) → (s.plant.fsq.staged ≠ none ∨ e.fire = true) →
    (s.plant.fan e.fan).running = false →
    ((s.plant.fan e.fan).driveFault = false ∨ (s.plant.fan e.fan).fire = true) →
    ∃ t, exec .rampPeriodEnd s = .next t ∧
      t.plant.fan e.fan = { s.plant.fan e.fan with
        state := .starting, output := s.cfg.fanMin e.fan, run := true, fireOverride := (s.plant.fan e.fan).fire
        timer := some s.cfg.timers.tRun } ∧
      (∀ f, f ≠ e.fan → t.plant.fan f = { s.plant.fan f with
        timer := tickTimer (s.plant.fan f).timer, output := (t.plant.fan f).output }) ∧
      t.plant.fsq.queue = es ∧ t.plant.fsq.spacing = some s.cfg.timers.spacing ∧ t.plant.gal = s.plant.gal) ∧
  (∀ (cfg : Settings) (p : Plant) (f : Fan) (g : Grant),
    let t := applyGrant cfg p f g
    let r : FanRec := { p.fan f with target := g.target, fire := g.fire }
    let still (q : Plant) : Prop := q = { p with fsq := { p.fsq with fans := q.fsq.fans } }
    (∀ h, h ≠ f → t.fan h = p.fan h) ∧
    (r.state = .tripped ∨ r.state = .locked → t.fan f = r ∧ still t) ∧
    (r.state = .off ∨ r.state = .stopping → g.target = 0 → t.fan f = r ∧ still t) ∧
    (r.state = .off ∨ r.state = .stopping → 0 < g.target →
      (p.fsq.queue.Pairwise fun a b => a.ahead b = true) → (∀ e ∈ p.fsq.queue, e.arrival < p.fsq.nextArrival) →
      let entry : QueueEntry := { fan := f, fire := g.fire, arrival := p.fsq.nextArrival }
      t.fan f = { r with state := .queued, timer := none } ∧ t = { p with fsq := { p.fsq with
        fans := t.fsq.fans, nextArrival := p.fsq.nextArrival + 1
        queue := p.fsq.queue.filter (fun e => e.fire || !g.fire) ++ entry ::
          p.fsq.queue.filter (fun e => !e.fire && g.fire)
        staged := if g.fire = true ∧ p.fsq.staged.any (fun x => p.fsq.queue.any fun e => e.fan == x.fan && !e.fire) = true
          then none else p.fsq.staged } }) ∧
    (r.state = .queued → 0 < g.target → t.fan f = r ∧ still t) ∧
    (r.state = .queued → g.target = 0 →
      t.fan f = { r with state := .off, output := 0, run := false, fireOverride := false, timer := none } ∧
      t = { p with fsq := { p.fsq with
        fans := t.fsq.fans, queue := p.fsq.queue.filter fun e => e.fan != f
        staged := if p.fsq.staged.any (fun x => x.fan == f) = true then none else p.fsq.staged } }) ∧
    (r.state = .starting ∨ r.state = .proving ∨ r.state = .running → still t ∧ t.fan f =
      if g.target = 0 then
        { r with state := .stopping, output := 0, run := false, fireOverride := false, timer := some cfg.timers.coast }
      else r)) ∧
  ∀ (cfg : Settings) (p : Plant),
    let t := retest cfg (reclass p)
    let drawn := (Fan.all.map fun f => if (p.fan f).state.inService then
      power (cfg.fans.rated.get f) (max (p.fan f).output (p.fan f).target) else 0).sum
    let needed (f : Fan) : Nat := power (cfg.fans.rated.get f) (p.fan f).target
    t = { p with fsq := { p.fsq with queue := t.fsq.queue, staged := t.fsq.staged } } ∧
      t.fsq.queue.Perm (p.fsq.queue.map fun e => { e with fire := (p.fan e.fan).fire }) ∧
      (t.fsq.queue.Pairwise fun a b => (a.fire = true ∨ b.fire = false) ∧
        (a.fire = b.fire → a.arrival ≤ b.arrival)) ∧
      (p.fsq.staged = none → t.fsq.staged = none) ∧
      ∀ x, p.fsq.staged = some x →
        (∀ e es, t.fsq.queue = e :: es → e.fan = x.fan →
          (e.fire = true ∨ drawn + needed x.fan ≤ p.fsq.budget →
            t.fsq.staged = some { x with reservation := needed x.fan }) ∧
          (e.fire = false → p.fsq.budget < drawn + needed x.fan → t.fsq.staged = none)) ∧
        ((∀ e es, t.fsq.queue = e :: es → e.fan ≠ x.fan) → t.fsq.staged = none)

/-- RUNNING_FEEDBACK, or DRIVE_INPUT_CHANGE of that input to made, of a fan in STARTING: RUNNING with its attempts
cleared when its airflow is made already, otherwise PROVING under T_prove, and then a queue test; in any other state
the input alone is recorded (R135, R145 to R147). AIRFLOW_PROVEN, or DRIVE_INPUT_CHANGE of that input to made, of a fan
in PROVING: RUNNING with its timer stopped and its attempts cleared; in any other state the input alone is recorded
(R135, R147). That the rows RUNNING_FEEDBACK and AIRFLOW_PROVEN are these input changes (log entry 13) and that one
queue test ends the event (log entry 12) is DEDUCED. -/
def Obligations.StartsAreProved : Prop :=
  (∀ (s : State) (f : Fan), s.Plain → (s.plant.fan f).running = false →
     ∀ c ∈ [Instr.runningFeedback f, .driveInputChange f .running true],
       let r : FanRec := { s.plant.fan f with running := true }
       (r.state = .starting → r.airflow = true → exec c s = .next ((s.onPlant fun p =>
         testQueue s.cfg (refreshStatus s.cfg
           (p.setFan f { r with state := .running, timer := none, attempts := 0 }))).refreshPins)) ∧
       (r.state = .starting → r.airflow = false → exec c s = .next ((s.onPlant fun p =>
         testQueue s.cfg (refreshStatus s.cfg
           (p.setFan f { r with state := .proving, timer := some s.cfg.timers.tProve }))).refreshPins)) ∧
       (r.state ≠ .starting → exec c s = .next (s.onPlant fun p => p.setFan f r).refreshPins)) ∧
  (∀ (s : State) (f : Fan), s.Plain → (s.plant.fan f).airflow = false →
     ∀ c ∈ [Instr.airflowProven f, .driveInputChange f .airflow true],
       let r : FanRec := { s.plant.fan f with airflow := true }
       (r.state = .proving → exec c s = .next ((s.onPlant fun p => refreshStatus s.cfg
         (p.setFan f { r with state := .running, timer := none, attempts := 0 })).refreshPins)) ∧
       (r.state ≠ .proving → exec c s = .next (s.onPlant fun p => p.setFan f r).refreshPins))

/-- A drive input that clears is recorded, and so is a drive fault of a fan out of service or under fire override;
nothing else follows, and a change to the level it has changes nothing (R135, R154). That the row DRIVE_FAULT is that
input's change is DEDUCED (log entry 13). COAST_EXPIRY takes a fan from STOPPING to OFF (R149). -/
def Obligations.QuietFanEvents : Prop :=
  (∀ (s : State) (f : Fan) (i : DriveInput), s.Plain →
     ((s.plant.fan f).level i = true → exec (.driveInputChange f i false) s =
       .next (s.onPlant fun p => p.setFan f ((p.fan f).setLevel i false)).refreshPins) ∧
     (∀ b, (s.plant.fan f).level i = b → exec (.driveInputChange f i b) s = .next s.refreshPins) ∧
     ((s.plant.fan f).driveFault = false →
       ((s.plant.fan f).state.inService = false ∨ (s.plant.fan f).fireOverride = true) →
       exec (.driveFault f) s = .next (s.onPlant fun p => p.setFan f ((p.fan f).setLevel .driveFault true)).refreshPins)) ∧
  (∀ (s : State) (f : Fan), s.Plain → (s.plant.fan f).state = .stopping → (s.plant.fan f).timer = some 0 →
     exec (.coastExpiry f) s = .next ((s.onPlant fun p => refreshStatus s.cfg (p.setFan f { s.plant.fan f with
       state := .off, output := 0, run := false, fireOverride := false, timer := none }))).refreshPins)

/-- A failure of a fan whose fire flag is clear, or its third counted attempt, trips it: TRIPPED with the failure's cause, run
command off, output 0, out of the start queue, with FAN-TRIP; no claim, damper or supply record moves (R146 to R148, R151
to R153). -/
def Obligations.FailuresTripTheFan : Prop :=
  ∀ (s : State) (c : Instr) (f : Fan) (cause : TripCause), s.Plain → s.plant.QueueOk → s.Fails c f cause →
    ((s.plant.fan f).fire = false ∨ 2 ≤ (s.plant.fan f).attempts) →
    ∃ t, exec c s = .next t ∧ (t.plant.fan f).state = .tripped ∧ (t.plant.fan f).cause = cause ∧
      (t.plant.fan f).run = false ∧ (t.plant.fan f).output = 0 ∧
      (t.plant.fan f).attempts =
        (s.plant.fan f).attempts + (if (s.plant.fan f).fire then 1 else 0) ∧
      t.plant.events.fanTrip = true ∧ (∀ e ∈ t.plant.fsq.queue, e.fan ≠ f) ∧
      (∀ z, (t.plant.zones.get z).claims = (s.plant.zones.get z).claims ∧
        (t.plant.zones.get z).result = (s.plant.zones.get z).result ∧
        t.plant.dampers.get z = s.plant.dampers.get z) ∧
      t.plant.fireOrder = s.plant.fireOrder ∧ t.plant.spm = s.plant.spm ∧ t.plant.gal.budget = s.plant.gal.budget ∧
      t = { s with plant := t.plant, pins := t.pins }

/-- A failure of a fan whose fire flag is set, on its first or second attempt, is counted and retried: the fan is
released, QUEUED and joins the queue as a FIRE entry, and a queue test follows, one for the event (R153; log entry 12,
DEDUCED). AIRFLOW_LOSS leaves the filtered airflow input clear (log entry 14, DEDUCED). Every step of a part with power
keeps each fire-override output set exactly while the fan's run command is on and its fire flag is set (R154). A fan
that joins the queue does so with the class of its fire flag, behind its class, and a FIRE entry unstages a staged
NORMAL entry (R137, R141). A pass that clears the fire flag of a fan with its fire-override output set, its drive fault
made and a grant above 0 trips it with cause DRIVE-FAULT (R152, R154). -/
def Obligations.FireFansRetryTheirStart : Prop :=
  (∀ (s : State) (c : Instr) (f : Fan) (cause : TripCause), s.Plain → s.Fails c f cause →
    (s.plant.fan f).fire = true → (s.plant.fan f).attempts < 2 →
    exec c s = .next ((s.onPlant fun p => testQueue s.cfg (refreshStatus s.cfg ((p.setFan f
      { s.plant.fan f with
        state := .queued, output := 0, run := false, fireOverride := false, timer := none
        attempts := (s.plant.fan f).attempts + 1
        airflow := if cause = .airflowLoss then false else (s.plant.fan f).airflow
        driveFault := if cause = .driveFault then true else (s.plant.fan f).driveFault }).join f))).refreshPins)) ∧
  (∀ s t : State, (s.mode ≠ .unpowered → s.plant.OverrideOk) → step s = .next t → t.mode ≠ .unpowered →
    t.plant.OverrideOk) ∧
  (∀ (p : Plant) (f : Fan), (p.fsq.queue.Pairwise fun a b => a.ahead b = true) →
    (∀ e ∈ p.fsq.queue, e.arrival < p.fsq.nextArrival) →
    let fire := (p.fan f).fire
    p.join f = { p with fsq := { p.fsq with
      nextArrival := p.fsq.nextArrival + 1
      queue := p.fsq.queue.filter (fun e => e.fire || !fire) ++ ⟨f, fire, p.fsq.nextArrival⟩ ::
        p.fsq.queue.filter (fun e => !e.fire && fire)
      staged := if fire = true ∧ p.fsq.staged.any (fun x => p.fsq.queue.any fun e => e.fan == x.fan && !e.fire) = true
        then none else p.fsq.staged } }) ∧
  ∀ (cfg : Settings) (p : Plant) (f : Fan), p.QueueOk → p.HoldOk → (p.fan f).state.inService = true →
    (p.fan f).fireOverride = true → (p.fan f).driveFault = true → 0 < ((allocate cfg p).grants.get f).target →
    ((allocate cfg p).grants.get f).fire = false →
    let t := runPass cfg p
    (t.fan f).state = .tripped ∧ (t.fan f).cause = .driveFault ∧ (t.fan f).run = false ∧ (t.fan f).output = 0 ∧
      (t.fan f).fireOverride = false ∧ t.events.fanTrip = true

/-- RAMP_PERIOD_END counts every timer of dampers, sensing, links and supply down by one and starts the next scan (R32;
log entry 26, DESIGN CHOICE), and with an empty start queue counts the start spacing down, which stops at 0 (R143), and
moves the outputs of the fans in PROVING and RUNNING by the ramp step toward their targets, a rise of a fan without its
fire flag only while the committed power after the falls fits the budget (R150; 00_scope.md, Time and filtering). A
timer that reaches 0 stands there until its own command handles its expiry (log entry 5, DESIGN CHOICE); a stopped
timer stays stopped. -/
def Obligations.RampMovesOutputsTowardTargets : Prop :=
  (∀ (s : State), s.Plain → ∃ t, exec .rampPeriodEnd s = .next t ∧
    (∀ z, t.plant.dampers.get z =
      { s.plant.dampers.get z with timer := tickTimer (s.plant.dampers.get z).timer }) ∧
    t.plant.spm = { s.plant.spm with settle := tickTimer s.plant.spm.settle } ∧
    (∀ z, (t.plant.zones.get z).claims = (s.plant.zones.get z).claims ∧
      (t.plant.zones.get z).result = (s.plant.zones.get z).result) ∧
    (∀ c, t.eval c = { s.eval c with delay := tickTimer (s.eval c).delay }) ∧
    (∀ z, t.fev.zones.get z = { s.fev.zones.get z with runOn := tickTimer (s.fev.zones.get z).runOn }) ∧
    t.scn = { s.scn with
      scanned := 0, inhibits := s.scn.inhibits.map fun e => { e with remaining := e.remaining - 1 } } ∧
    (s.plant.fsq.queue = [] → s.plant.fsq.staged = none →
      let step := s.cfg.timers.rampStep
      let low (f : Fan) : Nat :=
        let r := s.plant.fan f
        if (r.state = .proving ∨ r.state = .running) ∧ r.target < r.output then max r.target (r.output - step)
        else r.output
      let drawn := (Fan.all.map fun f => if (s.plant.fan f).state.inService then
        power (s.cfg.fans.rated.get f) (max (low f) (s.plant.fan f).target) else 0).sum
      t.plant.fsq.spacing =
        (match s.plant.fsq.spacing with
        | some n => if 1 < n then some (n - 1) else none
        | none => none) ∧
      ∀ f,
        let r := s.plant.fan f
        t.plant.fan f = { r with
          timer := tickTimer r.timer
          output :=
            if (r.state = .proving ∨ r.state = .running) ∧ r.output < r.target ∧
              (r.fire = true ∨ drawn ≤ s.plant.fsq.budget) then min r.target (r.output + step)
            else low f }) ∧
    t = { s with
      plant := t.plant, scn := t.scn, fev := t.fev, pins := t.pins
      fif := { s.fif with timer := tickTimer s.fif.timer }, bli := { s.bli with timer := tickTimer s.bli.timer } }) ∧
  tickTimer none = none ∧ ∀ n, tickTimer (some n) = some (n - 1)

/-! ## The supply -/

/-- A change of a supply contact that leaves the supply state as it was is recorded and no more; one that loses the supply
takes every fan not TRIPPED or LOCKED to OFF with its run command off, empties the start queue and leaves no budget
(R158, R162, R163). The contacts decode to MAINS while mains-healthy is made, else to GENERATOR while generator-online is
made, else to TRANSFER (R162). -/
def Obligations.LostSupplyDropsEveryFan : Prop :=
  (∀ (s : State) (i : SupplyInput) (b : Bool), s.Plain →
    let x := s.plant.spm.setLevel i b
    let new := decodeSupply x.mainsHealthy x.generatorOnline
    (new = s.plant.spm.state → exec (.supplyInputChange i b) s =
      .next (s.onPlant fun p => { p with spm := x }).refreshPins) ∧
    (new = .transfer → s.plant.spm.state ≠ .transfer → ∃ t, exec (.supplyInputChange i b) s = .next t ∧
      t.plant.spm = { x with state := .transfer, settle := none } ∧ t.plant.fsq.hold = true ∧
      t.plant.gal.budget = 0 ∧ t.plant.fsq.queue = [] ∧ t.plant.fsq.staged = none ∧ t.plant.fsq.spacing = none ∧
      (∀ f, (t.plant.fan f).target = 0 ∧ (t.plant.fan f).attempts = 0 ∧
        ((s.plant.fan f).state = .tripped ∨ (s.plant.fan f).state = .locked →
          (t.plant.fan f).state = (s.plant.fan f).state ∧ (t.plant.fan f).cause = (s.plant.fan f).cause) ∧
        ((s.plant.fan f).state ≠ .tripped → (s.plant.fan f).state ≠ .locked →
          (t.plant.fan f).state = .off ∧ (t.plant.fan f).run = false ∧ (t.plant.fan f).output = 0)) ∧
      t.plant.events.supplyChange = true ∧
      (∀ z, (t.plant.zones.get z).claims = (s.plant.zones.get z).claims ∧
        t.plant.dampers.get z = s.plant.dampers.get z) ∧
      t.plant.fireOrder = s.plant.fireOrder ∧ t = { s with plant := t.plant, pins := t.pins })) ∧
  (∀ a b : Bool, decodeSupply a b = if a then .mains else if b then .generator else .transfer) ∧
  ∀ (x : Spm) (b : Bool), x.setLevel .mainsHealthy b = { x with mainsHealthy := b } ∧
    x.setLevel .generatorOnline b = { x with generatorOnline := b }

/-- A supply that returns starts the settle delay and leaves the hold and the budget of 0; MAINS to GENERATOR does the
same after dropping every fan; GENERATOR to MAINS starts no delay and takes the mains budget unless one runs (R164,
R165). SETTLE_EXPIRY ends the supply hold and applies the budget of the supply (R123, R164). -/
def Obligations.ReturnedSupplySettles : Prop :=
  (∀ (s : State) (i : SupplyInput) (b : Bool), s.Plain → s.plant.HoldOk →
     let x := s.plant.spm.setLevel i b
     let new := decodeSupply x.mainsHealthy x.generatorOnline
     new ≠ .transfer → new ≠ s.plant.spm.state → ∃ t, exec (.supplyInputChange i b) s = .next t ∧
       t.plant.events.supplyChange = true ∧
       (∀ z, (t.plant.zones.get z).claims = (s.plant.zones.get z).claims ∧
         t.plant.dampers.get z = s.plant.dampers.get z) ∧
       t.plant.fireOrder = s.plant.fireOrder ∧ t = { s with plant := t.plant, pins := t.pins } ∧
       (s.plant.spm.state = .transfer ∨ s.plant.spm.state = .mains →
         t.plant.spm = { x with state := new, settle := some s.cfg.timers.settle } ∧ t.plant.fsq.hold = true ∧
         t.plant.gal.budget = 0 ∧ ∀ f, (t.plant.fan f).run = false) ∧
       (s.plant.spm.state = .generator →
         t.plant.spm = { x with state := .mains } ∧ t.plant.fsq.hold = s.plant.fsq.hold ∧
         t.plant.gal.budget = if s.plant.spm.settle.isSome then 0 else
           min s.cfg.budget.mains (s.bli.cap.getD s.cfg.budget.mains))) ∧
  (∀ (s : State), s.Plain → s.plant.spm.settle = some 0 → s.plant.spm.state ≠ .transfer →
     ∃ t, exec .settleExpiry s = .next t ∧ t.plant.spm = { s.plant.spm with settle := none } ∧
       t.plant.fsq.hold = false ∧
       t.plant.gal.budget = (if s.plant.spm.state = .generator then s.cfg.budget.generator
         else min s.cfg.budget.mains (s.bli.cap.getD s.cfg.budget.mains)) ∧
       (∀ z, (t.plant.zones.get z).claims = (s.plant.zones.get z).claims ∧
         t.plant.dampers.get z = s.plant.dampers.get z) ∧
       t.plant.fireOrder = s.plant.fireOrder ∧ t = { s with plant := t.plant, pins := t.pins })
end

