-- ==== Sys2Proof/Laws/Tables.lean ====
section
/-! SUPPORT. The laws of the tables: reading an entry of a table that was built or written, tables equal entry by entry,
and what the lists of all zones, groups, fans, channels and windows hold. -/

namespace Sys2Proof

@[simp] theorem PerZone.get_build {α : Type} (f : Zone → α) (i : Zone) : (PerZone.build f).get i = f i := by
  cases i <;> rfl

@[simp] theorem PerZone.get_set_self {α : Type} (t : PerZone α) (i : Zone) (x : α) : (t.set i x).get i = x := by
  cases i <;> rfl

@[simp] theorem PerZone.get_set_other {α : Type} (t : PerZone α) {i j : Zone} (h : j ≠ i) (x : α) :
    (t.set i x).get j = t.get j := by
  cases i <;> cases j <;> first | rfl | exact absurd rfl h

theorem PerZone.get_set {α : Type} (t : PerZone α) (i j : Zone) (x : α) :
    (t.set i x).get j = if j = i then x else t.get j := by
  by_cases h : j = i
  · subst h; simp
  · simp [h]

theorem PerZone.ext_get {α : Type} {s t : PerZone α} (h : ∀ i, s.get i = t.get i) : s = t := by
  cases s; cases t
  congr 1
  all_goals first
    | exact h .z1
    | exact h .z2
    | exact h .z3
    | exact h .z4
    | exact h .z5
    | exact h .z6
    | exact h .z7
    | exact h .z8

@[simp] theorem Zone.mem_all (i : Zone) : i ∈ Zone.all := by cases i <;> simp [Zone.all]

theorem Zone.all_nodup : Zone.all.Nodup := by decide

theorem Zone.number_inj {i j : Zone} (h : i.number = j.number) : i = j := by
  cases i <;> cases j <;> first | rfl | cases h

@[simp] theorem Zone.ofNumber?_number (i : Zone) : Zone.ofNumber? i.number = some i := by cases i <;> rfl

@[simp] theorem PerGroup.get_build {α : Type} (f : Group → α) (i : Group) : (PerGroup.build f).get i = f i := by
  cases i <;> rfl

@[simp] theorem PerGroup.get_set_self {α : Type} (t : PerGroup α) (i : Group) (x : α) : (t.set i x).get i = x := by
  cases i <;> rfl

@[simp] theorem PerGroup.get_set_other {α : Type} (t : PerGroup α) {i j : Group} (h : j ≠ i) (x : α) :
    (t.set i x).get j = t.get j := by
  cases i <;> cases j <;> first | rfl | exact absurd rfl h

theorem PerGroup.get_set {α : Type} (t : PerGroup α) (i j : Group) (x : α) :
    (t.set i x).get j = if j = i then x else t.get j := by
  by_cases h : j = i
  · subst h; simp
  · simp [h]

theorem PerGroup.ext_get {α : Type} {s t : PerGroup α} (h : ∀ i, s.get i = t.get i) : s = t := by
  cases s; cases t
  congr 1
  all_goals first
    | exact h .g1
    | exact h .g2
    | exact h .g3
    | exact h .g4

@[simp] theorem Group.mem_all (i : Group) : i ∈ Group.all := by cases i <;> simp [Group.all]

theorem Group.all_nodup : Group.all.Nodup := by decide

theorem Group.number_inj {i j : Group} (h : i.number = j.number) : i = j := by
  cases i <;> cases j <;> first | rfl | cases h

@[simp] theorem Group.ofNumber?_number (i : Group) : Group.ofNumber? i.number = some i := by cases i <;> rfl

@[simp] theorem PerFan.get_build {α : Type} (f : Fan → α) (i : Fan) : (PerFan.build f).get i = f i := by
  cases i <;> rfl

@[simp] theorem PerFan.get_set_self {α : Type} (t : PerFan α) (i : Fan) (x : α) : (t.set i x).get i = x := by
  cases i <;> rfl

@[simp] theorem PerFan.get_set_other {α : Type} (t : PerFan α) {i j : Fan} (h : j ≠ i) (x : α) :
    (t.set i x).get j = t.get j := by
  cases i <;> cases j <;> first | rfl | exact absurd rfl h

theorem PerFan.get_set {α : Type} (t : PerFan α) (i j : Fan) (x : α) :
    (t.set i x).get j = if j = i then x else t.get j := by
  by_cases h : j = i
  · subst h; simp
  · simp [h]

theorem PerFan.ext_get {α : Type} {s t : PerFan α} (h : ∀ i, s.get i = t.get i) : s = t := by
  cases s; cases t
  congr 1
  all_goals first
    | exact h .f1
    | exact h .f2
    | exact h .f3
    | exact h .f4
    | exact h .f5
    | exact h .f6
    | exact h .f7
    | exact h .f8
    | exact h .f9
    | exact h .f10
    | exact h .f11
    | exact h .f12

@[simp] theorem Fan.mem_all (i : Fan) : i ∈ Fan.all := by cases i <;> simp [Fan.all]

theorem Fan.all_nodup : Fan.all.Nodup := by decide

theorem Fan.number_inj {i j : Fan} (h : i.number = j.number) : i = j := by
  cases i <;> cases j <;> first | rfl | cases h

@[simp] theorem Fan.ofNumber?_number (i : Fan) : Fan.ofNumber? i.number = some i := by cases i <;> rfl

@[simp] theorem PerChannel.get_build {α : Type} (f : Channel → α) (i : Channel) : (PerChannel.build f).get i = f i := by
  cases i <;> rfl

@[simp] theorem PerChannel.get_set_self {α : Type} (t : PerChannel α) (i : Channel) (x : α) : (t.set i x).get i = x := by
  cases i <;> rfl

@[simp] theorem PerChannel.get_set_other {α : Type} (t : PerChannel α) {i j : Channel} (h : j ≠ i) (x : α) :
    (t.set i x).get j = t.get j := by
  cases i <;> cases j <;> first | rfl | exact absurd rfl h

theorem PerChannel.get_set {α : Type} (t : PerChannel α) (i j : Channel) (x : α) :
    (t.set i x).get j = if j = i then x else t.get j := by
  by_cases h : j = i
  · subst h; simp
  · simp [h]

theorem PerChannel.ext_get {α : Type} {s t : PerChannel α} (h : ∀ i, s.get i = t.get i) : s = t := by
  cases s; cases t
  congr 1
  all_goals first
    | exact h .c1
    | exact h .c2
    | exact h .c3
    | exact h .c4
    | exact h .c5
    | exact h .c6
    | exact h .c7
    | exact h .c8
    | exact h .c9
    | exact h .c10
    | exact h .c11
    | exact h .c12
    | exact h .c13
    | exact h .c14
    | exact h .c15
    | exact h .c16

@[simp] theorem Channel.mem_all (i : Channel) : i ∈ Channel.all := by cases i <;> simp [Channel.all]

theorem Channel.all_nodup : Channel.all.Nodup := by decide

theorem Channel.number_inj {i j : Channel} (h : i.number = j.number) : i = j := by
  cases i <;> cases j <;> first | rfl | cases h

@[simp] theorem Channel.ofNumber?_number (i : Channel) : Channel.ofNumber? i.number = some i := by cases i <;> rfl

@[simp] theorem PerWindow.get_build {α : Type} (f : WindowNo → α) (i : WindowNo) : (PerWindow.build f).get i = f i := by
  cases i <;> rfl

@[simp] theorem PerWindow.get_set_self {α : Type} (t : PerWindow α) (i : WindowNo) (x : α) : (t.set i x).get i = x := by
  cases i <;> rfl

@[simp] theorem PerWindow.get_set_other {α : Type} (t : PerWindow α) {i j : WindowNo} (h : j ≠ i) (x : α) :
    (t.set i x).get j = t.get j := by
  cases i <;> cases j <;> first | rfl | exact absurd rfl h

theorem PerWindow.get_set {α : Type} (t : PerWindow α) (i j : WindowNo) (x : α) :
    (t.set i x).get j = if j = i then x else t.get j := by
  by_cases h : j = i
  · subst h; simp
  · simp [h]

theorem PerWindow.ext_get {α : Type} {s t : PerWindow α} (h : ∀ i, s.get i = t.get i) : s = t := by
  cases s; cases t
  congr 1
  all_goals first
    | exact h .w1
    | exact h .w2
    | exact h .w3
    | exact h .w4

@[simp] theorem WindowNo.mem_all (i : WindowNo) : i ∈ WindowNo.all := by cases i <;> simp [WindowNo.all]

theorem WindowNo.all_nodup : WindowNo.all.Nodup := by decide

theorem WindowNo.number_inj {i j : WindowNo} (h : i.number = j.number) : i = j := by
  cases i <;> cases j <;> first | rfl | cases h

@[simp] theorem WindowNo.ofNumber?_number (i : WindowNo) : WindowNo.ofNumber? i.number = some i := by cases i <;> rfl

end Sys2Proof
end

