-- ==== Sys2Proof/Laws/State.lean ====
section
/-! SUPPORT. What each named update of the state and of the plant does to each field: one lemma for a field, true by
definition, for `simp`. -/

namespace Sys2Proof.Machine

/-! ### State.raise -/

@[simp] theorem State.raise_mode (s : State) (k : EventKind) : (s.raise k).mode = s.mode := rfl
@[simp] theorem State.raise_plant (s : State) (k : EventKind) : (s.raise k).plant = s.plant.raise k := rfl
@[simp] theorem State.raise_scn (s : State) (k : EventKind) : (s.raise k).scn = s.scn := rfl
@[simp] theorem State.raise_fev (s : State) (k : EventKind) : (s.raise k).fev = s.fev := rfl
@[simp] theorem State.raise_fif (s : State) (k : EventKind) : (s.raise k).fif = s.fif := rfl
@[simp] theorem State.raise_pif (s : State) (k : EventKind) : (s.raise k).pif = s.pif := rfl
@[simp] theorem State.raise_dck (s : State) (k : EventKind) : (s.raise k).dck = s.dck := rfl
@[simp] theorem State.raise_bli (s : State) (k : EventKind) : (s.raise k).bli = s.bli := rfl
@[simp] theorem State.raise_sst (s : State) (k : EventKind) : (s.raise k).sst = s.sst := rfl
@[simp] theorem State.raise_pins (s : State) (k : EventKind) : (s.raise k).pins = s.pins := rfl
@[simp] theorem State.raise_wire (s : State) (k : EventKind) : (s.raise k).wire = s.wire := rfl
@[simp] theorem State.raise_pending (s : State) (k : EventKind) : (s.raise k).pending = s.pending := rfl

/-! ### State.onPlant -/

@[simp] theorem State.onPlant_mode (s : State) (f : Plant → Plant) : (s.onPlant f).mode = s.mode := rfl
@[simp] theorem State.onPlant_plant (s : State) (f : Plant → Plant) : (s.onPlant f).plant = f s.plant := rfl
@[simp] theorem State.onPlant_scn (s : State) (f : Plant → Plant) : (s.onPlant f).scn = s.scn := rfl
@[simp] theorem State.onPlant_fev (s : State) (f : Plant → Plant) : (s.onPlant f).fev = s.fev := rfl
@[simp] theorem State.onPlant_fif (s : State) (f : Plant → Plant) : (s.onPlant f).fif = s.fif := rfl
@[simp] theorem State.onPlant_pif (s : State) (f : Plant → Plant) : (s.onPlant f).pif = s.pif := rfl
@[simp] theorem State.onPlant_dck (s : State) (f : Plant → Plant) : (s.onPlant f).dck = s.dck := rfl
@[simp] theorem State.onPlant_bli (s : State) (f : Plant → Plant) : (s.onPlant f).bli = s.bli := rfl
@[simp] theorem State.onPlant_sst (s : State) (f : Plant → Plant) : (s.onPlant f).sst = s.sst := rfl
@[simp] theorem State.onPlant_pins (s : State) (f : Plant → Plant) : (s.onPlant f).pins = s.pins := rfl
@[simp] theorem State.onPlant_wire (s : State) (f : Plant → Plant) : (s.onPlant f).wire = s.wire := rfl
@[simp] theorem State.onPlant_pending (s : State) (f : Plant → Plant) : (s.onPlant f).pending = s.pending := rfl

/-! ### State.place -/

@[simp] theorem State.place_mode (s : State) (z : Zone) (c : Claim) : (s.place z c).mode = s.mode := rfl
@[simp] theorem State.place_plant (s : State) (z : Zone) (c : Claim) : (s.place z c).plant = Machine.place s.cfg z c s.plant := rfl
@[simp] theorem State.place_scn (s : State) (z : Zone) (c : Claim) : (s.place z c).scn = s.scn := rfl
@[simp] theorem State.place_fev (s : State) (z : Zone) (c : Claim) : (s.place z c).fev = s.fev := rfl
@[simp] theorem State.place_fif (s : State) (z : Zone) (c : Claim) : (s.place z c).fif = s.fif := rfl
@[simp] theorem State.place_pif (s : State) (z : Zone) (c : Claim) : (s.place z c).pif = s.pif := rfl
@[simp] theorem State.place_dck (s : State) (z : Zone) (c : Claim) : (s.place z c).dck = s.dck := rfl
@[simp] theorem State.place_bli (s : State) (z : Zone) (c : Claim) : (s.place z c).bli = s.bli := rfl
@[simp] theorem State.place_sst (s : State) (z : Zone) (c : Claim) : (s.place z c).sst = s.sst := rfl
@[simp] theorem State.place_pins (s : State) (z : Zone) (c : Claim) : (s.place z c).pins = s.pins := rfl
@[simp] theorem State.place_wire (s : State) (z : Zone) (c : Claim) : (s.place z c).wire = s.wire := rfl
@[simp] theorem State.place_pending (s : State) (z : Zone) (c : Claim) : (s.place z c).pending = s.pending := rfl

/-! ### State.remove -/

@[simp] theorem State.remove_mode (s : State) (z : Zone) (src : Source) : (s.remove z src).mode = s.mode := rfl
@[simp] theorem State.remove_plant (s : State) (z : Zone) (src : Source) : (s.remove z src).plant = Machine.remove s.cfg z src s.plant := rfl
@[simp] theorem State.remove_scn (s : State) (z : Zone) (src : Source) : (s.remove z src).scn = s.scn := rfl
@[simp] theorem State.remove_fev (s : State) (z : Zone) (src : Source) : (s.remove z src).fev = s.fev := rfl
@[simp] theorem State.remove_fif (s : State) (z : Zone) (src : Source) : (s.remove z src).fif = s.fif := rfl
@[simp] theorem State.remove_pif (s : State) (z : Zone) (src : Source) : (s.remove z src).pif = s.pif := rfl
@[simp] theorem State.remove_dck (s : State) (z : Zone) (src : Source) : (s.remove z src).dck = s.dck := rfl
@[simp] theorem State.remove_bli (s : State) (z : Zone) (src : Source) : (s.remove z src).bli = s.bli := rfl
@[simp] theorem State.remove_sst (s : State) (z : Zone) (src : Source) : (s.remove z src).sst = s.sst := rfl
@[simp] theorem State.remove_pins (s : State) (z : Zone) (src : Source) : (s.remove z src).pins = s.pins := rfl
@[simp] theorem State.remove_wire (s : State) (z : Zone) (src : Source) : (s.remove z src).wire = s.wire := rfl
@[simp] theorem State.remove_pending (s : State) (z : Zone) (src : Source) : (s.remove z src).pending = s.pending := rfl

/-! ### State.setChannel -/

@[simp] theorem State.setChannel_mode (s : State) (c : Channel) (r : ChannelRec) : (s.setChannel c r).mode = s.mode := rfl
@[simp] theorem State.setChannel_plant (s : State) (c : Channel) (r : ChannelRec) : (s.setChannel c r).plant = s.plant := rfl
@[simp] theorem State.setChannel_fev (s : State) (c : Channel) (r : ChannelRec) : (s.setChannel c r).fev = s.fev := rfl
@[simp] theorem State.setChannel_fif (s : State) (c : Channel) (r : ChannelRec) : (s.setChannel c r).fif = s.fif := rfl
@[simp] theorem State.setChannel_pif (s : State) (c : Channel) (r : ChannelRec) : (s.setChannel c r).pif = s.pif := rfl
@[simp] theorem State.setChannel_dck (s : State) (c : Channel) (r : ChannelRec) : (s.setChannel c r).dck = s.dck := rfl
@[simp] theorem State.setChannel_bli (s : State) (c : Channel) (r : ChannelRec) : (s.setChannel c r).bli = s.bli := rfl
@[simp] theorem State.setChannel_sst (s : State) (c : Channel) (r : ChannelRec) : (s.setChannel c r).sst = s.sst := rfl
@[simp] theorem State.setChannel_pins (s : State) (c : Channel) (r : ChannelRec) : (s.setChannel c r).pins = s.pins := rfl
@[simp] theorem State.setChannel_wire (s : State) (c : Channel) (r : ChannelRec) : (s.setChannel c r).wire = s.wire := rfl
@[simp] theorem State.setChannel_pending (s : State) (c : Channel) (r : ChannelRec) : (s.setChannel c r).pending = s.pending := rfl

/-! ### State.scanTo -/

@[simp] theorem State.scanTo_mode (s : State) (c : Channel) : (s.scanTo c).mode = s.mode := rfl
@[simp] theorem State.scanTo_plant (s : State) (c : Channel) : (s.scanTo c).plant = s.plant := rfl
@[simp] theorem State.scanTo_fev (s : State) (c : Channel) : (s.scanTo c).fev = s.fev := rfl
@[simp] theorem State.scanTo_fif (s : State) (c : Channel) : (s.scanTo c).fif = s.fif := rfl
@[simp] theorem State.scanTo_pif (s : State) (c : Channel) : (s.scanTo c).pif = s.pif := rfl
@[simp] theorem State.scanTo_dck (s : State) (c : Channel) : (s.scanTo c).dck = s.dck := rfl
@[simp] theorem State.scanTo_bli (s : State) (c : Channel) : (s.scanTo c).bli = s.bli := rfl
@[simp] theorem State.scanTo_sst (s : State) (c : Channel) : (s.scanTo c).sst = s.sst := rfl
@[simp] theorem State.scanTo_pins (s : State) (c : Channel) : (s.scanTo c).pins = s.pins := rfl
@[simp] theorem State.scanTo_wire (s : State) (c : Channel) : (s.scanTo c).wire = s.wire := rfl
@[simp] theorem State.scanTo_pending (s : State) (c : Channel) : (s.scanTo c).pending = s.pending := rfl
@[simp] theorem State.scanTo_channels (s : State) (c : Channel) : (s.scanTo c).scn.channels = s.scn.channels := rfl
@[simp] theorem State.scanTo_inhibits (s : State) (c : Channel) : (s.scanTo c).scn.inhibits = s.scn.inhibits := rfl
@[simp] theorem State.scanTo_scanned (s : State) (c : Channel) : (s.scanTo c).scn.scanned = c.number := rfl
@[simp] theorem State.scanTo_channel (s : State) (c d : Channel) : (s.scanTo c).channel d = s.channel d := rfl

/-! ### State.setInhibits -/

@[simp] theorem State.setInhibits_mode (s : State) (l : List Inhibit) : (s.setInhibits l).mode = s.mode := rfl
@[simp] theorem State.setInhibits_plant (s : State) (l : List Inhibit) : (s.setInhibits l).plant = s.plant := rfl
@[simp] theorem State.setInhibits_scn (s : State) (l : List Inhibit) : (s.setInhibits l).scn = { s.scn with inhibits := l } := rfl
@[simp] theorem State.setInhibits_fev (s : State) (l : List Inhibit) : (s.setInhibits l).fev = s.fev := rfl
@[simp] theorem State.setInhibits_fif (s : State) (l : List Inhibit) : (s.setInhibits l).fif = s.fif := rfl
@[simp] theorem State.setInhibits_pif (s : State) (l : List Inhibit) : (s.setInhibits l).pif = s.pif := rfl
@[simp] theorem State.setInhibits_dck (s : State) (l : List Inhibit) : (s.setInhibits l).dck = s.dck := rfl
@[simp] theorem State.setInhibits_bli (s : State) (l : List Inhibit) : (s.setInhibits l).bli = s.bli := rfl
@[simp] theorem State.setInhibits_sst (s : State) (l : List Inhibit) : (s.setInhibits l).sst = s.sst := rfl
@[simp] theorem State.setInhibits_pins (s : State) (l : List Inhibit) : (s.setInhibits l).pins = s.pins := rfl
@[simp] theorem State.setInhibits_wire (s : State) (l : List Inhibit) : (s.setInhibits l).wire = s.wire := rfl
@[simp] theorem State.setInhibits_pending (s : State) (l : List Inhibit) : (s.setInhibits l).pending = s.pending := rfl

/-! ### State.setEval -/

@[simp] theorem State.setEval_mode (s : State) (c : Channel) (e : ChannelEval) : (s.setEval c e).mode = s.mode := rfl
@[simp] theorem State.setEval_plant (s : State) (c : Channel) (e : ChannelEval) : (s.setEval c e).plant = s.plant := rfl
@[simp] theorem State.setEval_scn (s : State) (c : Channel) (e : ChannelEval) : (s.setEval c e).scn = s.scn := rfl
@[simp] theorem State.setEval_fif (s : State) (c : Channel) (e : ChannelEval) : (s.setEval c e).fif = s.fif := rfl
@[simp] theorem State.setEval_pif (s : State) (c : Channel) (e : ChannelEval) : (s.setEval c e).pif = s.pif := rfl
@[simp] theorem State.setEval_dck (s : State) (c : Channel) (e : ChannelEval) : (s.setEval c e).dck = s.dck := rfl
@[simp] theorem State.setEval_bli (s : State) (c : Channel) (e : ChannelEval) : (s.setEval c e).bli = s.bli := rfl
@[simp] theorem State.setEval_sst (s : State) (c : Channel) (e : ChannelEval) : (s.setEval c e).sst = s.sst := rfl
@[simp] theorem State.setEval_pins (s : State) (c : Channel) (e : ChannelEval) : (s.setEval c e).pins = s.pins := rfl
@[simp] theorem State.setEval_wire (s : State) (c : Channel) (e : ChannelEval) : (s.setEval c e).wire = s.wire := rfl
@[simp] theorem State.setEval_pending (s : State) (c : Channel) (e : ChannelEval) : (s.setEval c e).pending = s.pending := rfl

/-! ### State.setZoneEval -/

@[simp] theorem State.setZoneEval_mode (s : State) (z : Zone) (e : ZoneEval) : (s.setZoneEval z e).mode = s.mode := rfl
@[simp] theorem State.setZoneEval_plant (s : State) (z : Zone) (e : ZoneEval) : (s.setZoneEval z e).plant = s.plant := rfl
@[simp] theorem State.setZoneEval_scn (s : State) (z : Zone) (e : ZoneEval) : (s.setZoneEval z e).scn = s.scn := rfl
@[simp] theorem State.setZoneEval_fif (s : State) (z : Zone) (e : ZoneEval) : (s.setZoneEval z e).fif = s.fif := rfl
@[simp] theorem State.setZoneEval_pif (s : State) (z : Zone) (e : ZoneEval) : (s.setZoneEval z e).pif = s.pif := rfl
@[simp] theorem State.setZoneEval_dck (s : State) (z : Zone) (e : ZoneEval) : (s.setZoneEval z e).dck = s.dck := rfl
@[simp] theorem State.setZoneEval_bli (s : State) (z : Zone) (e : ZoneEval) : (s.setZoneEval z e).bli = s.bli := rfl
@[simp] theorem State.setZoneEval_sst (s : State) (z : Zone) (e : ZoneEval) : (s.setZoneEval z e).sst = s.sst := rfl
@[simp] theorem State.setZoneEval_pins (s : State) (z : Zone) (e : ZoneEval) : (s.setZoneEval z e).pins = s.pins := rfl
@[simp] theorem State.setZoneEval_wire (s : State) (z : Zone) (e : ZoneEval) : (s.setZoneEval z e).wire = s.wire := rfl
@[simp] theorem State.setZoneEval_pending (s : State) (z : Zone) (e : ZoneEval) : (s.setZoneEval z e).pending = s.pending := rfl

/-! ### State.setRunOn -/

@[simp] theorem State.setRunOn_mode (s : State) (z : Zone) (t : Option Nat) : (s.setRunOn z t).mode = s.mode := rfl
@[simp] theorem State.setRunOn_plant (s : State) (z : Zone) (t : Option Nat) : (s.setRunOn z t).plant = s.plant := rfl
@[simp] theorem State.setRunOn_scn (s : State) (z : Zone) (t : Option Nat) : (s.setRunOn z t).scn = s.scn := rfl
@[simp] theorem State.setRunOn_fif (s : State) (z : Zone) (t : Option Nat) : (s.setRunOn z t).fif = s.fif := rfl
@[simp] theorem State.setRunOn_pif (s : State) (z : Zone) (t : Option Nat) : (s.setRunOn z t).pif = s.pif := rfl
@[simp] theorem State.setRunOn_dck (s : State) (z : Zone) (t : Option Nat) : (s.setRunOn z t).dck = s.dck := rfl
@[simp] theorem State.setRunOn_bli (s : State) (z : Zone) (t : Option Nat) : (s.setRunOn z t).bli = s.bli := rfl
@[simp] theorem State.setRunOn_sst (s : State) (z : Zone) (t : Option Nat) : (s.setRunOn z t).sst = s.sst := rfl
@[simp] theorem State.setRunOn_pins (s : State) (z : Zone) (t : Option Nat) : (s.setRunOn z t).pins = s.pins := rfl
@[simp] theorem State.setRunOn_wire (s : State) (z : Zone) (t : Option Nat) : (s.setRunOn z t).wire = s.wire := rfl
@[simp] theorem State.setRunOn_pending (s : State) (z : Zone) (t : Option Nat) : (s.setRunOn z t).pending = s.pending := rfl

/-! ### State.holdSchedule -/

@[simp] theorem State.holdSchedule_mode (s : State) (z : Zone) (d : Option Nat) : (s.holdSchedule z d).mode = s.mode := rfl
@[simp] theorem State.holdSchedule_plant (s : State) (z : Zone) (d : Option Nat) : (s.holdSchedule z d).plant = s.plant := rfl
@[simp] theorem State.holdSchedule_scn (s : State) (z : Zone) (d : Option Nat) : (s.holdSchedule z d).scn = s.scn := rfl
@[simp] theorem State.holdSchedule_fev (s : State) (z : Zone) (d : Option Nat) : (s.holdSchedule z d).fev = s.fev := rfl
@[simp] theorem State.holdSchedule_fif (s : State) (z : Zone) (d : Option Nat) : (s.holdSchedule z d).fif = s.fif := rfl
@[simp] theorem State.holdSchedule_pif (s : State) (z : Zone) (d : Option Nat) : (s.holdSchedule z d).pif = s.pif := rfl
@[simp] theorem State.holdSchedule_dck (s : State) (z : Zone) (d : Option Nat) : (s.holdSchedule z d).dck = { s.dck with held := s.dck.held.set z d } := rfl
@[simp] theorem State.holdSchedule_bli (s : State) (z : Zone) (d : Option Nat) : (s.holdSchedule z d).bli = s.bli := rfl
@[simp] theorem State.holdSchedule_sst (s : State) (z : Zone) (d : Option Nat) : (s.holdSchedule z d).sst = s.sst := rfl
@[simp] theorem State.holdSchedule_pins (s : State) (z : Zone) (d : Option Nat) : (s.holdSchedule z d).pins = s.pins := rfl
@[simp] theorem State.holdSchedule_wire (s : State) (z : Zone) (d : Option Nat) : (s.holdSchedule z d).wire = s.wire := rfl
@[simp] theorem State.holdSchedule_pending (s : State) (z : Zone) (d : Option Nat) : (s.holdSchedule z d).pending = s.pending := rfl

/-! ### State.holdPanel -/

@[simp] theorem State.holdPanel_mode (s : State) (z : Zone) (k : Option ClaimKind) : (s.holdPanel z k).mode = s.mode := rfl
@[simp] theorem State.holdPanel_plant (s : State) (z : Zone) (k : Option ClaimKind) : (s.holdPanel z k).plant = s.plant := rfl
@[simp] theorem State.holdPanel_scn (s : State) (z : Zone) (k : Option ClaimKind) : (s.holdPanel z k).scn = s.scn := rfl
@[simp] theorem State.holdPanel_fev (s : State) (z : Zone) (k : Option ClaimKind) : (s.holdPanel z k).fev = s.fev := rfl
@[simp] theorem State.holdPanel_fif (s : State) (z : Zone) (k : Option ClaimKind) : (s.holdPanel z k).fif = s.fif := rfl
@[simp] theorem State.holdPanel_pif (s : State) (z : Zone) (k : Option ClaimKind) : (s.holdPanel z k).pif = { s.pif with held := s.pif.held.set z k } := rfl
@[simp] theorem State.holdPanel_dck (s : State) (z : Zone) (k : Option ClaimKind) : (s.holdPanel z k).dck = s.dck := rfl
@[simp] theorem State.holdPanel_bli (s : State) (z : Zone) (k : Option ClaimKind) : (s.holdPanel z k).bli = s.bli := rfl
@[simp] theorem State.holdPanel_sst (s : State) (z : Zone) (k : Option ClaimKind) : (s.holdPanel z k).sst = s.sst := rfl
@[simp] theorem State.holdPanel_pins (s : State) (z : Zone) (k : Option ClaimKind) : (s.holdPanel z k).pins = s.pins := rfl
@[simp] theorem State.holdPanel_wire (s : State) (z : Zone) (k : Option ClaimKind) : (s.holdPanel z k).wire = s.wire := rfl
@[simp] theorem State.holdPanel_pending (s : State) (z : Zone) (k : Option ClaimKind) : (s.holdPanel z k).pending = s.pending := rfl

/-! ### State.holdBms -/

@[simp] theorem State.holdBms_mode (s : State) (z : Zone) (k : Option ClaimKind) : (s.holdBms z k).mode = s.mode := rfl
@[simp] theorem State.holdBms_plant (s : State) (z : Zone) (k : Option ClaimKind) : (s.holdBms z k).plant = s.plant := rfl
@[simp] theorem State.holdBms_scn (s : State) (z : Zone) (k : Option ClaimKind) : (s.holdBms z k).scn = s.scn := rfl
@[simp] theorem State.holdBms_fev (s : State) (z : Zone) (k : Option ClaimKind) : (s.holdBms z k).fev = s.fev := rfl
@[simp] theorem State.holdBms_fif (s : State) (z : Zone) (k : Option ClaimKind) : (s.holdBms z k).fif = s.fif := rfl
@[simp] theorem State.holdBms_pif (s : State) (z : Zone) (k : Option ClaimKind) : (s.holdBms z k).pif = s.pif := rfl
@[simp] theorem State.holdBms_dck (s : State) (z : Zone) (k : Option ClaimKind) : (s.holdBms z k).dck = s.dck := rfl
@[simp] theorem State.holdBms_bli (s : State) (z : Zone) (k : Option ClaimKind) : (s.holdBms z k).bli = { s.bli with held := s.bli.held.set z k } := rfl
@[simp] theorem State.holdBms_sst (s : State) (z : Zone) (k : Option ClaimKind) : (s.holdBms z k).sst = s.sst := rfl
@[simp] theorem State.holdBms_pins (s : State) (z : Zone) (k : Option ClaimKind) : (s.holdBms z k).pins = s.pins := rfl
@[simp] theorem State.holdBms_wire (s : State) (z : Zone) (k : Option ClaimKind) : (s.holdBms z k).wire = s.wire := rfl
@[simp] theorem State.holdBms_pending (s : State) (z : Zone) (k : Option ClaimKind) : (s.holdBms z k).pending = s.pending := rfl

/-! ### State.setQueue -/

@[simp] theorem State.setQueue_mode (s : State) (q : List Frame) : (s.setQueue q).mode = s.mode := rfl
@[simp] theorem State.setQueue_plant (s : State) (q : List Frame) : (s.setQueue q).plant = s.plant := rfl
@[simp] theorem State.setQueue_scn (s : State) (q : List Frame) : (s.setQueue q).scn = s.scn := rfl
@[simp] theorem State.setQueue_fev (s : State) (q : List Frame) : (s.setQueue q).fev = s.fev := rfl
@[simp] theorem State.setQueue_fif (s : State) (q : List Frame) : (s.setQueue q).fif = s.fif := rfl
@[simp] theorem State.setQueue_pif (s : State) (q : List Frame) : (s.setQueue q).pif = s.pif := rfl
@[simp] theorem State.setQueue_dck (s : State) (q : List Frame) : (s.setQueue q).dck = s.dck := rfl
@[simp] theorem State.setQueue_bli (s : State) (q : List Frame) : (s.setQueue q).bli = { s.bli with queue := q } := rfl
@[simp] theorem State.setQueue_sst (s : State) (q : List Frame) : (s.setQueue q).sst = s.sst := rfl
@[simp] theorem State.setQueue_pins (s : State) (q : List Frame) : (s.setQueue q).pins = s.pins := rfl
@[simp] theorem State.setQueue_wire (s : State) (q : List Frame) : (s.setQueue q).wire = s.wire := rfl
@[simp] theorem State.setQueue_pending (s : State) (q : List Frame) : (s.setQueue q).pending = s.pending := rfl

/-! ### State.countRestart -/

@[simp] theorem State.countRestart_mode (s : State) : (s.countRestart).mode = s.mode := rfl
@[simp] theorem State.countRestart_plant (s : State) : (s.countRestart).plant = s.plant := rfl
@[simp] theorem State.countRestart_scn (s : State) : (s.countRestart).scn = s.scn := rfl
@[simp] theorem State.countRestart_fev (s : State) : (s.countRestart).fev = s.fev := rfl
@[simp] theorem State.countRestart_fif (s : State) : (s.countRestart).fif = s.fif := rfl
@[simp] theorem State.countRestart_pif (s : State) : (s.countRestart).pif = s.pif := rfl
@[simp] theorem State.countRestart_dck (s : State) : (s.countRestart).dck = s.dck := rfl
@[simp] theorem State.countRestart_bli (s : State) : (s.countRestart).bli = s.bli := rfl
@[simp] theorem State.countRestart_sst (s : State) : (s.countRestart).sst = s.sst := rfl
@[simp] theorem State.countRestart_pins (s : State) : (s.countRestart).pins = s.pins := rfl
@[simp] theorem State.countRestart_wire (s : State) : (s.countRestart).wire = { s.wire with restarts := s.wire.restarts + 1 } := rfl
@[simp] theorem State.countRestart_pending (s : State) : (s.countRestart).pending = s.pending := rfl

/-! ### State.sendB -/

@[simp] theorem State.sendB_mode (s : State) (f : Frame) : (s.sendB f).mode = s.mode := rfl
@[simp] theorem State.sendB_plant (s : State) (f : Frame) : (s.sendB f).plant = s.plant := rfl
@[simp] theorem State.sendB_scn (s : State) (f : Frame) : (s.sendB f).scn = s.scn := rfl
@[simp] theorem State.sendB_fev (s : State) (f : Frame) : (s.sendB f).fev = s.fev := rfl
@[simp] theorem State.sendB_fif (s : State) (f : Frame) : (s.sendB f).fif = s.fif := rfl
@[simp] theorem State.sendB_pif (s : State) (f : Frame) : (s.sendB f).pif = s.pif := rfl
@[simp] theorem State.sendB_dck (s : State) (f : Frame) : (s.sendB f).dck = s.dck := rfl
@[simp] theorem State.sendB_bli (s : State) (f : Frame) : (s.sendB f).bli = s.bli := rfl
@[simp] theorem State.sendB_sst (s : State) (f : Frame) : (s.sendB f).sst = s.sst := rfl
@[simp] theorem State.sendB_pins (s : State) (f : Frame) : (s.sendB f).pins = s.pins := rfl
@[simp] theorem State.sendB_wire (s : State) (f : Frame) : (s.sendB f).wire = { s.wire with bLink := f.bytes :: s.wire.bLink } := rfl
@[simp] theorem State.sendB_pending (s : State) (f : Frame) : (s.sendB f).pending = s.pending := rfl

/-! ### State.sendF -/

@[simp] theorem State.sendF_mode (s : State) (k : Byte) (p : List Byte) : (s.sendF k p).mode = s.mode := rfl
@[simp] theorem State.sendF_plant (s : State) (k : Byte) (p : List Byte) : (s.sendF k p).plant = s.plant := rfl
@[simp] theorem State.sendF_scn (s : State) (k : Byte) (p : List Byte) : (s.sendF k p).scn = s.scn := rfl
@[simp] theorem State.sendF_fev (s : State) (k : Byte) (p : List Byte) : (s.sendF k p).fev = s.fev := rfl
@[simp] theorem State.sendF_fif (s : State) (k : Byte) (p : List Byte) : (s.sendF k p).fif = s.fif := rfl
@[simp] theorem State.sendF_pif (s : State) (k : Byte) (p : List Byte) : (s.sendF k p).pif = s.pif := rfl
@[simp] theorem State.sendF_dck (s : State) (k : Byte) (p : List Byte) : (s.sendF k p).dck = s.dck := rfl
@[simp] theorem State.sendF_bli (s : State) (k : Byte) (p : List Byte) : (s.sendF k p).bli = s.bli := rfl
@[simp] theorem State.sendF_sst (s : State) (k : Byte) (p : List Byte) : (s.sendF k p).sst = s.sst := rfl
@[simp] theorem State.sendF_pins (s : State) (k : Byte) (p : List Byte) : (s.sendF k p).pins = s.pins := rfl
@[simp] theorem State.sendF_pending (s : State) (k : Byte) (p : List Byte) : (s.sendF k p).pending = s.pending := rfl

/-! ### State.setSession -/

@[simp] theorem State.setSession_mode (s : State) (x : Session) : (s.setSession x).mode = s.mode := rfl
@[simp] theorem State.setSession_plant (s : State) (x : Session) : (s.setSession x).plant = s.plant := rfl
@[simp] theorem State.setSession_scn (s : State) (x : Session) : (s.setSession x).scn = s.scn := rfl
@[simp] theorem State.setSession_fev (s : State) (x : Session) : (s.setSession x).fev = s.fev := rfl
@[simp] theorem State.setSession_fif (s : State) (x : Session) : (s.setSession x).fif = s.fif := rfl
@[simp] theorem State.setSession_pif (s : State) (x : Session) : (s.setSession x).pif = s.pif := rfl
@[simp] theorem State.setSession_dck (s : State) (x : Session) : (s.setSession x).dck = s.dck := rfl
@[simp] theorem State.setSession_bli (s : State) (x : Session) : (s.setSession x).bli = s.bli := rfl
@[simp] theorem State.setSession_sst (s : State) (x : Session) : (s.setSession x).sst = { s.sst with session := x } := rfl
@[simp] theorem State.setSession_pins (s : State) (x : Session) : (s.setSession x).pins = s.pins := rfl
@[simp] theorem State.setSession_wire (s : State) (x : Session) : (s.setSession x).wire = s.wire := rfl
@[simp] theorem State.setSession_pending (s : State) (x : Session) : (s.setSession x).pending = s.pending := rfl

/-! ### State.startCommit -/

@[simp] theorem State.startCommit_mode (s : State) (v : BlockValue) : (s.startCommit v).mode = s.mode := rfl
@[simp] theorem State.startCommit_plant (s : State) (v : BlockValue) : (s.startCommit v).plant = s.plant := rfl
@[simp] theorem State.startCommit_scn (s : State) (v : BlockValue) : (s.startCommit v).scn = s.scn := rfl
@[simp] theorem State.startCommit_fev (s : State) (v : BlockValue) : (s.startCommit v).fev = s.fev := rfl
@[simp] theorem State.startCommit_fif (s : State) (v : BlockValue) : (s.startCommit v).fif = s.fif := rfl
@[simp] theorem State.startCommit_pif (s : State) (v : BlockValue) : (s.startCommit v).pif = s.pif := rfl
@[simp] theorem State.startCommit_dck (s : State) (v : BlockValue) : (s.startCommit v).dck = s.dck := rfl
@[simp] theorem State.startCommit_bli (s : State) (v : BlockValue) : (s.startCommit v).bli = s.bli := rfl
@[simp] theorem State.startCommit_pins (s : State) (v : BlockValue) : (s.startCommit v).pins = s.pins := rfl
@[simp] theorem State.startCommit_wire (s : State) (v : BlockValue) : (s.startCommit v).wire = s.wire := rfl
@[simp] theorem State.startCommit_pending (s : State) (v : BlockValue) : (s.startCommit v).pending = s.pending := rfl

/-! ### State.putInForce -/

@[simp] theorem State.putInForce_mode (s : State) (v : BlockValue) : (s.putInForce v).mode = s.mode := rfl
@[simp] theorem State.putInForce_plant (s : State) (v : BlockValue) : (s.putInForce v).plant = s.plant := rfl
@[simp] theorem State.putInForce_scn (s : State) (v : BlockValue) : (s.putInForce v).scn = s.scn := rfl
@[simp] theorem State.putInForce_fev (s : State) (v : BlockValue) : (s.putInForce v).fev = s.fev := rfl
@[simp] theorem State.putInForce_fif (s : State) (v : BlockValue) : (s.putInForce v).fif = s.fif := rfl
@[simp] theorem State.putInForce_pif (s : State) (v : BlockValue) : (s.putInForce v).pif = s.pif := rfl
@[simp] theorem State.putInForce_dck (s : State) (v : BlockValue) : (s.putInForce v).dck = s.dck := rfl
@[simp] theorem State.putInForce_bli (s : State) (v : BlockValue) : (s.putInForce v).bli = s.bli := rfl
@[simp] theorem State.putInForce_sst (s : State) (v : BlockValue) : (s.putInForce v).sst = { s.sst with inForce := s.sst.inForce.put v } := rfl
@[simp] theorem State.putInForce_pins (s : State) (v : BlockValue) : (s.putInForce v).pins = s.pins := rfl
@[simp] theorem State.putInForce_wire (s : State) (v : BlockValue) : (s.putInForce v).wire = s.wire := rfl
@[simp] theorem State.putInForce_pending (s : State) (v : BlockValue) : (s.putInForce v).pending = s.pending := rfl

/-! ### State.hearB -/

@[simp] theorem State.hearB_mode (s : State) : (s.hearB).mode = s.mode := rfl
@[simp] theorem State.hearB_plant (s : State) : (s.hearB).plant = s.plant := rfl
@[simp] theorem State.hearB_scn (s : State) : (s.hearB).scn = s.scn := rfl
@[simp] theorem State.hearB_fev (s : State) : (s.hearB).fev = s.fev := rfl
@[simp] theorem State.hearB_fif (s : State) : (s.hearB).fif = s.fif := rfl
@[simp] theorem State.hearB_pif (s : State) : (s.hearB).pif = s.pif := rfl
@[simp] theorem State.hearB_dck (s : State) : (s.hearB).dck = s.dck := rfl
@[simp] theorem State.hearB_bli (s : State) : (s.hearB).bli = { s.bli with link := .up, timer := some s.cfg.timers.bLink } := rfl
@[simp] theorem State.hearB_sst (s : State) : (s.hearB).sst = s.sst := rfl
@[simp] theorem State.hearB_pins (s : State) : (s.hearB).pins = s.pins := rfl
@[simp] theorem State.hearB_wire (s : State) : (s.hearB).wire = s.wire := rfl
@[simp] theorem State.hearB_pending (s : State) : (s.hearB).pending = s.pending := rfl

/-! ### State.setCap -/

@[simp] theorem State.setCap_mode (s : State) (cap : Option Nat) : (s.setCap cap).mode = s.mode := rfl
@[simp] theorem State.setCap_plant (s : State) (cap : Option Nat) : (s.setCap cap).plant = budgetChange s.cfg cap s.plant := rfl
@[simp] theorem State.setCap_scn (s : State) (cap : Option Nat) : (s.setCap cap).scn = s.scn := rfl
@[simp] theorem State.setCap_fev (s : State) (cap : Option Nat) : (s.setCap cap).fev = s.fev := rfl
@[simp] theorem State.setCap_fif (s : State) (cap : Option Nat) : (s.setCap cap).fif = s.fif := rfl
@[simp] theorem State.setCap_pif (s : State) (cap : Option Nat) : (s.setCap cap).pif = s.pif := rfl
@[simp] theorem State.setCap_dck (s : State) (cap : Option Nat) : (s.setCap cap).dck = s.dck := rfl
@[simp] theorem State.setCap_bli (s : State) (cap : Option Nat) : (s.setCap cap).bli = { s.bli with cap := cap } := rfl
@[simp] theorem State.setCap_sst (s : State) (cap : Option Nat) : (s.setCap cap).sst = s.sst := rfl
@[simp] theorem State.setCap_pins (s : State) (cap : Option Nat) : (s.setCap cap).pins = s.pins := rfl
@[simp] theorem State.setCap_wire (s : State) (cap : Option Nat) : (s.setCap cap).wire = s.wire := rfl
@[simp] theorem State.setCap_pending (s : State) (cap : Option Nat) : (s.setCap cap).pending = s.pending := rfl

/-! ### State.claimBms -/

@[simp] theorem State.claimBms_mode (s : State) (z : Zone) (k : ClaimKind) : (s.claimBms z k).mode = s.mode := rfl
@[simp] theorem State.claimBms_plant (s : State) (z : Zone) (k : ClaimKind) : (s.claimBms z k).plant = Machine.place s.cfg z (bmsClaim k) s.plant := rfl
@[simp] theorem State.claimBms_scn (s : State) (z : Zone) (k : ClaimKind) : (s.claimBms z k).scn = s.scn := rfl
@[simp] theorem State.claimBms_fev (s : State) (z : Zone) (k : ClaimKind) : (s.claimBms z k).fev = s.fev := rfl
@[simp] theorem State.claimBms_fif (s : State) (z : Zone) (k : ClaimKind) : (s.claimBms z k).fif = s.fif := rfl
@[simp] theorem State.claimBms_pif (s : State) (z : Zone) (k : ClaimKind) : (s.claimBms z k).pif = s.pif := rfl
@[simp] theorem State.claimBms_dck (s : State) (z : Zone) (k : ClaimKind) : (s.claimBms z k).dck = s.dck := rfl
@[simp] theorem State.claimBms_bli (s : State) (z : Zone) (k : ClaimKind) : (s.claimBms z k).bli = { s.bli with held := s.bli.held.set z (some k) } := rfl
@[simp] theorem State.claimBms_sst (s : State) (z : Zone) (k : ClaimKind) : (s.claimBms z k).sst = s.sst := rfl
@[simp] theorem State.claimBms_pins (s : State) (z : Zone) (k : ClaimKind) : (s.claimBms z k).pins = s.pins := rfl
@[simp] theorem State.claimBms_wire (s : State) (z : Zone) (k : ClaimKind) : (s.claimBms z k).wire = s.wire := rfl
@[simp] theorem State.claimBms_pending (s : State) (z : Zone) (k : ClaimKind) : (s.claimBms z k).pending = s.pending := rfl

/-! ### State.refreshPins -/

@[simp] theorem State.refreshPins_mode (s : State) : (s.refreshPins).mode = s.mode := rfl
@[simp] theorem State.refreshPins_plant (s : State) : (s.refreshPins).plant = s.plant := rfl
@[simp] theorem State.refreshPins_scn (s : State) : (s.refreshPins).scn = s.scn := rfl
@[simp] theorem State.refreshPins_fev (s : State) : (s.refreshPins).fev = s.fev := rfl
@[simp] theorem State.refreshPins_fif (s : State) : (s.refreshPins).fif = s.fif := rfl
@[simp] theorem State.refreshPins_pif (s : State) : (s.refreshPins).pif = s.pif := rfl
@[simp] theorem State.refreshPins_dck (s : State) : (s.refreshPins).dck = s.dck := rfl
@[simp] theorem State.refreshPins_bli (s : State) : (s.refreshPins).bli = s.bli := rfl
@[simp] theorem State.refreshPins_sst (s : State) : (s.refreshPins).sst = s.sst := rfl
@[simp] theorem State.refreshPins_wire (s : State) : (s.refreshPins).wire = s.wire := rfl
@[simp] theorem State.refreshPins_pending (s : State) : (s.refreshPins).pending = s.pending := rfl

/-! ### Plant.setFan -/

@[simp] theorem Plant.setFan_zones (p : Plant) (f : Fan) (r : FanRec) : (p.setFan f r).zones = p.zones := rfl
@[simp] theorem Plant.setFan_fireOrder (p : Plant) (f : Fan) (r : FanRec) : (p.setFan f r).fireOrder = p.fireOrder := rfl
@[simp] theorem Plant.setFan_dampers (p : Plant) (f : Fan) (r : FanRec) : (p.setFan f r).dampers = p.dampers := rfl
@[simp] theorem Plant.setFan_gal (p : Plant) (f : Fan) (r : FanRec) : (p.setFan f r).gal = p.gal := rfl
@[simp] theorem Plant.setFan_fsq (p : Plant) (f : Fan) (r : FanRec) : (p.setFan f r).fsq = { p.fsq with fans := p.fsq.fans.set f r } := rfl
@[simp] theorem Plant.setFan_spm (p : Plant) (f : Fan) (r : FanRec) : (p.setFan f r).spm = p.spm := rfl
@[simp] theorem Plant.setFan_events (p : Plant) (f : Fan) (r : FanRec) : (p.setFan f r).events = p.events := rfl

/-! ### Plant.unstage -/

@[simp] theorem Plant.unstage_zones (p : Plant) : (p.unstage).zones = p.zones := rfl
@[simp] theorem Plant.unstage_fireOrder (p : Plant) : (p.unstage).fireOrder = p.fireOrder := rfl
@[simp] theorem Plant.unstage_dampers (p : Plant) : (p.unstage).dampers = p.dampers := rfl
@[simp] theorem Plant.unstage_gal (p : Plant) : (p.unstage).gal = p.gal := rfl
@[simp] theorem Plant.unstage_fsq (p : Plant) : (p.unstage).fsq = { p.fsq with staged := none } := rfl
@[simp] theorem Plant.unstage_spm (p : Plant) : (p.unstage).spm = p.spm := rfl
@[simp] theorem Plant.unstage_events (p : Plant) : (p.unstage).events = p.events := rfl

/-! ### Plant.raise -/

@[simp] theorem Plant.raise_zones (p : Plant) (k : EventKind) : (p.raise k).zones = p.zones := rfl
@[simp] theorem Plant.raise_fireOrder (p : Plant) (k : EventKind) : (p.raise k).fireOrder = p.fireOrder := rfl
@[simp] theorem Plant.raise_dampers (p : Plant) (k : EventKind) : (p.raise k).dampers = p.dampers := rfl
@[simp] theorem Plant.raise_gal (p : Plant) (k : EventKind) : (p.raise k).gal = p.gal := rfl
@[simp] theorem Plant.raise_fsq (p : Plant) (k : EventKind) : (p.raise k).fsq = p.fsq := rfl
@[simp] theorem Plant.raise_spm (p : Plant) (k : EventKind) : (p.raise k).spm = p.spm := rfl
@[simp] theorem Plant.raise_events (p : Plant) (k : EventKind) : (p.raise k).events = p.events.add k := rfl

/-! ### Plant.setDuty -/

@[simp] theorem Plant.setDuty_zones (p : Plant) (g : Group) (d : List Fan) : (p.setDuty g d).zones = p.zones := rfl
@[simp] theorem Plant.setDuty_fireOrder (p : Plant) (g : Group) (d : List Fan) : (p.setDuty g d).fireOrder = p.fireOrder := rfl
@[simp] theorem Plant.setDuty_dampers (p : Plant) (g : Group) (d : List Fan) : (p.setDuty g d).dampers = p.dampers := rfl
@[simp] theorem Plant.setDuty_fsq (p : Plant) (g : Group) (d : List Fan) : (p.setDuty g d).fsq = p.fsq := rfl
@[simp] theorem Plant.setDuty_spm (p : Plant) (g : Group) (d : List Fan) : (p.setDuty g d).spm = p.spm := rfl
@[simp] theorem Plant.setDuty_events (p : Plant) (g : Group) (d : List Fan) : (p.setDuty g d).events = p.events := rfl

/-! ### Plant.setClaims -/

@[simp] theorem Plant.setClaims_zones (p : Plant) (z : Zone) (l : List Claim) : (p.setClaims z l).zones = p.zones.set z { p.zones.get z with claims := l } := rfl
@[simp] theorem Plant.setClaims_fireOrder (p : Plant) (z : Zone) (l : List Claim) : (p.setClaims z l).fireOrder = p.fireOrder := rfl
@[simp] theorem Plant.setClaims_dampers (p : Plant) (z : Zone) (l : List Claim) : (p.setClaims z l).dampers = p.dampers := rfl
@[simp] theorem Plant.setClaims_gal (p : Plant) (z : Zone) (l : List Claim) : (p.setClaims z l).gal = p.gal := rfl
@[simp] theorem Plant.setClaims_fsq (p : Plant) (z : Zone) (l : List Claim) : (p.setClaims z l).fsq = p.fsq := rfl
@[simp] theorem Plant.setClaims_spm (p : Plant) (z : Zone) (l : List Claim) : (p.setClaims z l).spm = p.spm := rfl
@[simp] theorem Plant.setClaims_events (p : Plant) (z : Zone) (l : List Claim) : (p.setClaims z l).events = p.events := rfl

/-! ### Entries of the records -/

@[simp] theorem Plant.setFan_fan_self (p : Plant) (f : Fan) (r : FanRec) : (p.setFan f r).fan f = r := by
  simp [Plant.fan]

@[simp] theorem Plant.setFan_fan_other (p : Plant) {f g : Fan} (h : g ≠ f) (r : FanRec) :
    (p.setFan f r).fan g = p.fan g := by
  simp [Plant.fan, h]

theorem Plant.setFan_fan (p : Plant) (f g : Fan) (r : FanRec) :
    (p.setFan f r).fan g = if g = f then r else p.fan g := by
  simp [Plant.fan, PerFan.get_set]

@[simp] theorem State.setChannel_self (s : State) (c : Channel) (r : ChannelRec) :
    (s.setChannel c r).channel c = r := by
  simp [State.channel, State.setChannel]

@[simp] theorem State.setChannel_other (s : State) {c d : Channel} (h : d ≠ c) (r : ChannelRec) :
    (s.setChannel c r).channel d = s.channel d := by
  simp [State.channel, State.setChannel, h]

@[simp] theorem State.setChannel_inhibits (s : State) (c : Channel) (r : ChannelRec) :
    (s.setChannel c r).scn.inhibits = s.scn.inhibits := rfl

@[simp] theorem State.setEval_self (s : State) (c : Channel) (e : ChannelEval) : (s.setEval c e).eval c = e := by
  simp [State.eval, State.setEval]

@[simp] theorem State.setEval_other (s : State) {c d : Channel} (h : d ≠ c) (e : ChannelEval) :
    (s.setEval c e).eval d = s.eval d := by
  simp [State.eval, State.setEval, h]

@[simp] theorem Plant.raiseIf_zones (p : Plant) (b : Bool) (k : EventKind) : (p.raiseIf b k).zones = p.zones := by
  cases b <;> rfl

@[simp] theorem Plant.raiseIf_fireOrder (p : Plant) (b : Bool) (k : EventKind) :
    (p.raiseIf b k).fireOrder = p.fireOrder := by cases b <;> rfl

@[simp] theorem Plant.raiseIf_dampers (p : Plant) (b : Bool) (k : EventKind) :
    (p.raiseIf b k).dampers = p.dampers := by cases b <;> rfl

@[simp] theorem Plant.raiseIf_gal (p : Plant) (b : Bool) (k : EventKind) : (p.raiseIf b k).gal = p.gal := by
  cases b <;> rfl

@[simp] theorem Plant.raiseIf_fsq (p : Plant) (b : Bool) (k : EventKind) : (p.raiseIf b k).fsq = p.fsq := by
  cases b <;> rfl

@[simp] theorem Plant.raiseIf_spm (p : Plant) (b : Bool) (k : EventKind) : (p.raiseIf b k).spm = p.spm := by
  cases b <;> rfl

end Sys2Proof.Machine
end

