-- ==== Sys2Proof/Laws/FanMoves.lean ====
section
/-! SUPPORT. Everything the allocator and the sequencer can do to the plant, said once: each of their operations is a
chain of the moves below, so that a property kept by every move is kept by every operation. -/

namespace Sys2Proof.Machine

/-! ## What the fan side never touches -/

theorem Plant.SameFireSide.refl (p : Plant) : p.SameFireSide p :=
  ⟨fun _ => rfl, fun _ => rfl, rfl, rfl, rfl, rfl, fun _ h => h, rfl, fun _ => rfl⟩

theorem Plant.SameFireSide.trans {p q r : Plant} (h : p.SameFireSide q) (k : q.SameFireSide r) : p.SameFireSide r :=
  ⟨fun z => (k.claims z).trans (h.claims z), fun z => (k.result z).trans (h.result z),
    k.fireOrder.trans h.fireOrder, k.dampers.trans h.dampers, k.spm.trans h.spm, k.budget.trans h.budget,
    fun e x => k.events e (h.events e x), k.hold.trans h.hold, fun f => (k.inputs f).trans (h.inputs f)⟩

theorem Events.has_add (e : Events) (k j : EventKind) : (e.add k).has j = (decide (j = k) || e.has j) := by
  cases k <;> cases j <;> simp [Events.add, Events.has]

theorem Plant.events_raise (p : Plant) (k : EventKind) : ∀ j, p.events.has j = true → (p.raise k).events.has j = true := by
  intro j h
  simp [Events.has_add, h]

theorem Plant.events_raiseIf (p : Plant) (b : Bool) (k : EventKind) :
    ∀ j, p.events.has j = true → (p.raiseIf b k).events.has j = true := by
  cases b
  · exact fun _ h => h
  · exact p.events_raise k

@[simp] theorem Plant.has_raiseIf (p : Plant) (b : Bool) (k j : EventKind) :
    (p.raiseIf b k).events.has j = ((b && decide (j = k)) || p.events.has j) := by
  cases b <;> simp [Plant.raiseIf, Plant.raise, Events.has_add]

theorem Plant.SameFireSide.of_fsq {p : Plant} (f : Fsq) (h : f.hold = p.fsq.hold)
    (fans : ∀ x, (f.fans.get x).inputs = (p.fan x).inputs) : p.SameFireSide { p with fsq := f } :=
  ⟨fun _ => rfl, fun _ => rfl, rfl, rfl, rfl, rfl, fun _ x => x, h, fans⟩

theorem Plant.SameFireSide.of_setFan {p : Plant} {f : Fan} {r : FanRec} (h : r.inputs = (p.fan f).inputs) :
    p.SameFireSide (p.setFan f r) := by
  refine .of_fsq _ rfl fun x => ?_
  rw [show ((p.fsq.fans.set f r).get x) = (p.setFan f r).fan x from rfl, Plant.setFan_fan]
  split <;> simp_all

/-! ## The moves -/

/-- One move of the fan side. -/
inductive FanMove (cfg : Settings) : Plant → Plant → Prop
  /-- Nothing of states, run commands or the queue changes. -/
  | note {p q : Plant} (same : p.SameFireSide q) (queue : q.fsq.queue = p.fsq.queue)
      (arrival : q.fsq.nextArrival = p.fsq.nextArrival)
      (staged : q.fsq.staged.map Staged.fan = p.fsq.staged.map Staged.fan)
      (state : ∀ f, (q.fan f).state = (p.fan f).state) (run : ∀ f, (q.fan f).run = (p.fan f).run)
      (out : ∀ f, (p.fan f).state.inReach = false →
        (q.fan f).cause = (p.fan f).cause ∧ (q.fan f).output = (p.fan f).output ∧
          (q.fan f).attempts = (p.fan f).attempts) : FanMove cfg p q
  /-- A fan that is not queued, and not TRIPPED or LOCKED, enters QUEUED and joins the start queue. -/
  | join {p : Plant} (f : Fan) (r : FanRec) (inputs : r.inputs = (p.fan f).inputs)
      (was : (p.fan f).state ≠ .queued)
      (reach : (p.fan f).state.inReach = true) (state : r.state = .queued)
      (run : r.run = false ∨ ((p.fan f).state.inService = false ∧ r.run = (p.fan f).run)) :
      FanMove cfg p ((p.setFan f r).join f)
  /-- A queued fan leaves the queue for OFF. -/
  | leave {p : Plant} (f : Fan) (r : FanRec) (inputs : r.inputs = (p.fan f).inputs)
      (was : (p.fan f).state = .queued) (state : r.state = .off) (run : r.run = false) :
      FanMove cfg p ((p.leave f).setFan f r)
  /-- A fan in service is released to STOPPING, or trips. -/
  | stop {p : Plant} (f : Fan) (r : FanRec) (inputs : r.inputs = (p.fan f).inputs)
      (was : (p.fan f).state.inService = true)
      (state : r.state = .stopping ∨ r.state = .tripped) (run : r.run = false) : FanMove cfg p (p.setFan f r)
  /-- A fan that coasted comes to rest. -/
  | rest {p : Plant} (f : Fan) (r : FanRec) (inputs : r.inputs = (p.fan f).inputs)
      (was : (p.fan f).state = .stopping) (state : r.state = .off)
      (run : r.run = false) : FanMove cfg p (p.setFan f r)
  /-- A fan's start is proved, in part or whole. -/
  | prove {p : Plant} (f : Fan) (r : FanRec) (inputs : r.inputs = (p.fan f).inputs)
      (was : (p.fan f).state = .starting ∨ (p.fan f).state = .proving)
      (state : r.state = .proving ∨ r.state = .running) (run : r.run = (p.fan f).run) :
      FanMove cfg p (p.setFan f r)
  /-- The head of the queue is staged, outside a supply hold. -/
  | stage {p : Plant} (e : QueueEntry) (es : List QueueEntry) (queue : p.fsq.queue = e :: es)
      (none : p.fsq.staged = none) (hold : p.fsq.hold = false) (n : Nat) :
      FanMove cfg p { p with fsq := { p.fsq with staged := some { fan := e.fan, reservation := n } } }
  /-- The staged fan is launched while no fan is in STARTING. -/
  | launch {p : Plant} (x : Staged) (r : FanRec) (inputs : r.inputs = (p.fan x.fan).inputs) (staged : p.fsq.staged = some x)
      (idle : ∀ f, (p.fan f).state ≠ .starting) (state : r.state = .starting) (run : r.run = true)
      (spacing : Option Nat) :
      FanMove cfg p
        (Plant.setFan { p.leave x.fan with fsq := { (p.leave x.fan).fsq with spacing := spacing } } x.fan r)
  /-- The classes of the queue are taken from the fire flags again and the staged entry is re-tested. -/
  | reorder {p : Plant} : FanMove cfg p (retest cfg (reclass p))

/-- A chain of moves. -/
abbrev FanChain (cfg : Settings) : Plant → Plant → Prop := Relation.ReflTransGen (FanMove cfg)

/-- A property kept by every move is kept by every chain. -/
theorem FanChain.keeps {cfg : Settings} {I : Plant → Prop} (move : ∀ {p q}, FanMove cfg p q → I p → I q)
    {p q : Plant} (h : FanChain cfg p q) (hp : I p) : I q := by
  induction h with
  | refl => exact hp
  | tail _ m ih => exact move m ih

/-! ## What every move leaves alone -/

@[simp] theorem Plant.leave_fans (p : Plant) (f : Fan) : (p.leave f).fsq.fans = p.fsq.fans := by
  unfold Plant.leave Plant.unstageFan
  split
  · split <;> rfl
  · rfl

@[simp] theorem Plant.join_fans (p : Plant) (f : Fan) : (p.join f).fsq.fans = p.fsq.fans := by
  unfold Plant.join
  simp only
  split <;> rfl

@[simp] theorem retest_fans (cfg : Settings) (p : Plant) : (retest cfg p).fsq.fans = p.fsq.fans := by
  unfold retest
  split
  · rfl
  · rfl
  · split
    · simp only
      split <;> rfl
    · rfl

theorem Plant.SameFireSide.of_leave (p : Plant) (f : Fan) : p.SameFireSide (p.leave f) := by
  unfold Plant.leave Plant.unstageFan
  split
  · split <;> exact .of_fsq _ rfl fun _ => rfl
  · exact .of_fsq _ rfl fun _ => rfl

theorem Plant.SameFireSide.of_join (p : Plant) (f : Fan) : p.SameFireSide (p.join f) := by
  unfold Plant.join
  simp only
  split <;> exact .of_fsq _ rfl fun _ => rfl

theorem Plant.SameFireSide.of_retest (cfg : Settings) (p : Plant) : p.SameFireSide (retest cfg p) := by
  unfold retest
  split
  · exact .refl p
  · exact .of_fsq _ rfl fun _ => rfl
  · split
    · simp only
      split <;> exact .of_fsq _ rfl fun _ => rfl
    · exact .of_fsq _ rfl fun _ => rfl

theorem FanMove.same {cfg : Settings} {p q : Plant} (h : FanMove cfg p q) : p.SameFireSide q := by
  cases h with
  | note same => exact same
  | join f r i => exact (Plant.SameFireSide.of_setFan i).trans (.of_join _ f)
  | leave f r i => exact (Plant.SameFireSide.of_leave p f).trans (.of_setFan (by simpa [Plant.fan] using i))
  | stop f r i => exact .of_setFan i
  | rest f r i => exact .of_setFan i
  | prove f r i => exact .of_setFan i
  | stage e es => exact .of_fsq _ rfl fun _ => rfl
  | launch x r i =>
    refine ((Plant.SameFireSide.of_leave p x.fan).trans ?_).trans (.of_setFan (by simpa [Plant.fan] using i))
    exact .of_fsq _ rfl fun _ => rfl
  | reorder => exact (show p.SameFireSide (reclass p) from .of_fsq _ rfl fun _ => rfl).trans (.of_retest cfg _)

/-- A chain of moves leaves the fire side, the supply and the budget as they were. -/
theorem FanChain.same {cfg : Settings} {p q : Plant} (h : FanChain cfg p q) : p.SameFireSide q := by
  induction h with
  | refl => exact .refl p
  | tail _ m ih => exact ih.trans m.same

/-! ## The operations as chains -/

/-- A record change that keeps a fan's state, run command, inputs and, while it is out of reach, its cause, output and
attempts, is one move. -/
theorem FanMove.of_record {cfg : Settings} {p : Plant} {f : Fan} {r : FanRec} (state : r.state = (p.fan f).state)
    (run : r.run = (p.fan f).run) (inputs : r.inputs = (p.fan f).inputs)
    (out : (p.fan f).state.inReach = false →
      r.cause = (p.fan f).cause ∧ r.output = (p.fan f).output ∧ r.attempts = (p.fan f).attempts) :
    FanMove cfg p (p.setFan f r) := by
  refine .note (.of_setFan inputs) rfl rfl rfl (fun g => ?_) (fun g => ?_) (fun g => ?_) <;>
  · rw [Plant.setFan_fan]
    split <;> simp_all

theorem refreshStatus_chain (cfg : Settings) (p : Plant) : FanChain cfg p (refreshStatus cfg p) := by
  refine .single (.note ⟨fun z => ?_, fun z => ?_, ?_, ?_, ?_, ?_, ?_, ?_, ?_⟩ ?_ ?_ ?_ (fun f => ?_) (fun f => ?_)
    (fun f => ?_)) <;>
  simp +contextual [refreshStatus, Plant.fan]

theorem recordPass_chain (cfg : Settings) (x : Pass) (p : Plant) : FanChain cfg p (recordPass x p) := by
  refine .single (.note ⟨fun z => ?_, fun z => ?_, ?_, ?_, ?_, ?_, ?_, ?_, ?_⟩ ?_ ?_ ?_ (fun f => ?_) (fun f => ?_)
    (fun f => ?_)) <;>
  simp +contextual [recordPass, Plant.fan]

theorem setDuty_chain (cfg : Settings) (p : Plant) (g : Group) (d : List Fan) : FanChain cfg p (p.setDuty g d) :=
  .single (.note ⟨fun _ => rfl, fun _ => rfl, rfl, rfl, rfl, rfl, fun _ h => h, rfl, fun _ => rfl⟩ rfl rfl rfl
    (fun _ => rfl) (fun _ => rfl) fun _ _ => ⟨rfl, rfl, rfl⟩)

theorem raise_chain (cfg : Settings) (p : Plant) (k : EventKind) : FanChain cfg p (p.raise k) :=
  .single (.note ⟨fun _ => rfl, fun _ => rfl, rfl, rfl, rfl, rfl, p.events_raise k, rfl, fun _ => rfl⟩ rfl rfl rfl
    (fun _ => rfl) (fun _ => rfl) fun _ _ => ⟨rfl, rfl, rfl⟩)

theorem trip_chain (cfg : Settings) (p : Plant) (f : Fan) (c : TripCause) (h : (p.fan f).state.inService = true) :
    FanChain cfg p (p.trip f c).1 :=
  (Relation.ReflTransGen.single (.stop f _ rfl h (.inr rfl) rfl)).trans (raise_chain cfg _ _)

theorem FanState.inReach_of_inService {x : FanState} (h : x.inService = true) : x.inReach = true := by
  cases x <;> simp_all [FanState.inService, FanState.inReach]

theorem failFan_chain (cfg : Settings) (p : Plant) (f : Fan) (c : TripCause) (h : (p.fan f).state.inService = true) :
    FanChain cfg p (p.failFan f c).1 := by
  unfold Plant.failFan
  simp only
  split
  · have m : FanMove cfg p (p.setFan f { p.fan f with attempts := (p.fan f).attempts + 1 }) :=
      .of_record rfl rfl rfl fun x => by simp [FanState.inReach_of_inService h] at x
    split
    · refine (Relation.ReflTransGen.single m).tail (.join f _ (by simp [FanRec.inputs, FanRec.release]) ?_ ?_ rfl (.inl rfl)) <;>
      · simp only [Plant.setFan_fan_self]
        cases hs : (p.fan f).state <;> simp_all [FanState.inService, FanState.inReach]
    · refine (Relation.ReflTransGen.single m).trans (trip_chain cfg _ f c ?_)
      simpa using h
  · exact trip_chain cfg p f c h

theorem prove_chain (cfg : Settings) (p : Plant) (f : Fan)
    (h : (p.fan f).state = .starting ∨ (p.fan f).state = .proving) : FanChain cfg p (p.prove cfg f) := by
  unfold Plant.prove
  simp only
  split
  · exact .single (.prove f _ rfl h (.inr rfl) rfl)
  · exact .single (.prove f _ rfl h (.inl rfl) rfl)

theorem startTests_chain (cfg : Settings) (p : Plant) (f : Fan) (h : (p.fan f).state = .starting) :
    FanChain cfg p (p.startTests cfg f).1 := by
  unfold Plant.startTests
  simp only
  split
  · exact failFan_chain cfg p f _ (by rw [h]; rfl)
  · split
    · exact prove_chain cfg p f (.inl h)
    · exact .refl

theorem stageHead_chain (cfg : Settings) (p : Plant) : FanChain cfg p (stageHead cfg p) := by
  unfold stageHead
  split
  · exact .refl
  · rename_i e es hq
    split
    · rename_i hm
      simp only [mayStage, Bool.and_eq_true, Option.isNone_iff_eq_none, Bool.not_eq_true'] at hm
      exact .single (.stage e es hq hm.1.1 hm.1.2 _)
    · exact .refl

theorem launch_chain (cfg : Settings) (p : Plant) (x : Staged) (hx : p.fsq.staged = some x)
    (idle : ∀ f, (p.fan f).state ≠ .starting) : FanChain cfg p (launch cfg p x.fan).1 := by
  unfold launch
  simp only
  refine (Relation.ReflTransGen.single (.launch x _ (by simp [FanRec.launched, FanRec.inputs, Plant.fan]) hx idle rfl rfl (some cfg.timers.spacing))).trans
    (startTests_chain cfg _ x.fan ?_)
  simp [FanRec.launched]

theorem queueTest_chain (cfg : Settings) (p : Plant) : FanChain cfg p (queueTest cfg p).1 := by
  unfold queueTest
  simp only
  split
  · exact stageHead_chain cfg p
  · rename_i x hx
    split
    · rename_i hm
      simp only [mayLaunch, Bool.and_eq_true, List.all_eq_true, bne_iff_ne, ne_eq] at hm
      exact ((stageHead_chain cfg p).trans (launch_chain cfg _ x hx fun f => hm.2 f (Fan.mem_all f))).trans
        (stageHead_chain cfg _)
    · exact stageHead_chain cfg p

theorem applyGrant_chain (cfg : Settings) (p : Plant) (f : Fan) (g : Grant) :
    FanChain cfg p (applyGrant cfg p f g) := by
  have m : FanMove cfg p (p.setFan f { p.fan f with target := g.target, fire := g.fire }) :=
    .of_record rfl rfl rfl fun _ => ⟨rfl, rfl, rfl⟩
  unfold applyGrant
  simp only
  split <;> rename_i hs
  all_goals try split
  all_goals try exact .single m
  · exact (Relation.ReflTransGen.single m).tail
      (.join f _ (by simp [FanRec.inputs]) (by simp [hs]) (by simp [hs, FanState.inReach]) rfl (.inr ⟨by simp [hs, FanState.inService], rfl⟩))
  · exact (Relation.ReflTransGen.single m).tail
      (.join f _ (by simp [FanRec.inputs]) (by simp [hs]) (by simp [hs, FanState.inReach]) rfl (.inr ⟨by simp [hs, FanState.inService], rfl⟩))
  · exact (Relation.ReflTransGen.single m).tail (.leave f _ (by simp [FanRec.inputs, FanRec.release]) (by simp [hs]) rfl rfl)
  all_goals
    exact (Relation.ReflTransGen.single m).tail (.stop f _ (by simp [FanRec.inputs, FanRec.release, FanRec.coastDown])
      (by simp [hs, FanState.inService]) (.inl rfl) rfl)

theorem setOverride_chain (cfg : Settings) (x : Reported) (f : Fan) :
    FanChain cfg x.1 (setOverride x f).1 := by
  have m : FanMove cfg x.1
      (x.1.setFan f { x.1.fan f with fireOverride := (x.1.fan f).run && (x.1.fan f).fire }) :=
    .of_record rfl rfl rfl fun _ => ⟨rfl, rfl, rfl⟩
  unfold setOverride
  simp only
  split
  · rename_i h
    simp only [Bool.and_eq_true] at h
    exact (Relation.ReflTransGen.single m).trans (failFan_chain cfg _ f _ (by simpa using h.1.2))
  · exact .single m

/-- Folding an operation that is a chain is a chain. -/
theorem foldl_chain {α : Type} {cfg : Settings} {step : Plant → α → Plant}
    (h : ∀ p a, FanChain cfg p (step p a)) (l : List α) (p : Plant) : FanChain cfg p (l.foldl step p) := by
  induction l generalizing p with
  | nil => exact .refl
  | cons a l ih => exact (h p a).trans (ih _)

theorem setOverrides_chain (cfg : Settings) (l : List Fan) (x : Reported) :
    FanChain cfg x.1 (l.foldl setOverride x).1 := by
  induction l generalizing x with
  | nil => exact .refl
  | cons f l ih => exact (setOverride_chain cfg x f).trans (ih _)

theorem fsqPass_chain (cfg : Settings) (grants : PerFan Grant) (p : Plant) :
    FanChain cfg p (fsqPass cfg grants p).1 := by
  have first : FanMove cfg p { p with fsq := { p.fsq with budget := p.gal.budget } } :=
    .note (.of_fsq _ rfl fun _ => rfl) rfl rfl rfl (fun _ => rfl) (fun _ => rfl) fun _ _ => ⟨rfl, rfl, rfl⟩
  have grant := foldl_chain (fun q f => applyGrant_chain cfg q f (grants.get f)) Fan.all { p with fsq := { p.fsq with budget := p.gal.budget } }
  unfold fsqPass
  simp only
  exact ((((Relation.ReflTransGen.single first).trans grant).tail .reorder).trans (setOverrides_chain cfg Fan.all (_, []))).trans
    (queueTest_chain cfg _)

theorem rotate_chain (cfg : Settings) (before now : PerGroup GroupRec) (p : Plant) :
    FanChain cfg p (rotate before now p) := by
  refine foldl_chain (fun q g => ?_) Group.all p
  split
  · exact setDuty_chain cfg q g _
  · exact .refl

theorem sendToBack_chain (cfg : Settings) (f : Fan) (p : Plant) : FanChain cfg p (sendToBack cfg f p) := by
  unfold sendToBack
  split
  · exact setDuty_chain cfg p _ _
  · exact .refl

theorem passes_chain (cfg : Settings) (n : Nat) (p : Plant) : FanChain cfg p (passes cfg n p) := by
  induction n generalizing p with
  | zero => exact .refl
  | succ n ih =>
    unfold passes
    simp only
    have first := (((recordPass_chain cfg (allocate cfg p) p).trans
      (fsqPass_chain cfg (allocate cfg p).grants _)).trans (refreshStatus_chain cfg _)).trans
      (rotate_chain cfg p.gal.groups (allocate cfg p).groups _)
    exact first.trans (foldl_chain (fun q f => (sendToBack_chain cfg f q).trans (ih _)) _ _)

/-- An allocation pass with everything it sets off is a chain of moves. -/
theorem runPass_chain (cfg : Settings) (p : Plant) : FanChain cfg p (runPass cfg p) := passes_chain cfg 13 p

theorem takeReport_chain (cfg : Settings) (p : Plant) (f : Fan) : FanChain cfg p (takeReport cfg p f) :=
  (sendToBack_chain cfg f p).trans (runPass_chain cfg _)

theorem report_chain (cfg : Settings) (x : Reported) : FanChain cfg x.1 (report cfg x) :=
  (refreshStatus_chain cfg x.1).trans (foldl_chain (takeReport_chain cfg) x.2 _)

theorem testQueue_chain (cfg : Settings) (p : Plant) : FanChain cfg p (testQueue cfg p) :=
  (queueTest_chain cfg p).trans (report_chain cfg _)

/-- The end of a fan event, with its queue test, is a chain of moves. -/
theorem fanEvent_chain (cfg : Settings) (x : Reported) : FanChain cfg x.1 (fanEvent cfg x) :=
  (report_chain cfg x).trans (testQueue_chain cfg _)

theorem timeoutFan_chain (cfg : Settings) (p : Plant) (f : Fan) : FanChain cfg p (timeoutFan p f).1 := by
  unfold timeoutFan
  split <;> rename_i hs
  · exact failFan_chain cfg p f _ (by simp [hs, FanState.inService])
  · exact failFan_chain cfg p f _ (by simp [hs, FanState.inService])
  · exact .single (.rest f _ rfl hs rfl rfl)
  · exact .refl

theorem expireFan_chain (cfg : Settings) (p : Plant) (f : Fan) : FanChain cfg p (expireFan cfg p f) := by
  unfold expireFan
  split
  · split
    · exact (timeoutFan_chain cfg p f).trans (fanEvent_chain cfg _)
    · exact (timeoutFan_chain cfg p f).trans (report_chain cfg _)
  · exact .refl

@[simp] theorem FanRec.setLevel_state (r : FanRec) (i : DriveInput) (b : Bool) : (r.setLevel i b).state = r.state := by
  cases i <;> rfl

@[simp] theorem FanRec.setLevel_fireOverride (r : FanRec) (i : DriveInput) (b : Bool) :
    (r.setLevel i b).fireOverride = r.fireOverride := by
  cases i <;> rfl

/-- A change of a drive input is the recording of the level and then a chain of moves. -/
theorem changeDriveInput_chain (cfg : Settings) (f : Fan) (input : DriveInput) (made : Bool) (p : Plant)
    (h : (p.fan f).level input ≠ made) :
    FanChain cfg (p.setFan f ((p.fan f).setLevel input made)) (changeDriveInput cfg f input made p) := by
  unfold changeDriveInput
  simp only [h, if_false]
  split
  · split
    · rename_i h
      exact (prove_chain cfg _ f (.inl (by simpa using h))).trans (fanEvent_chain cfg (_, []))
    · exact .refl
  · split
    · rename_i h
      exact (prove_chain cfg _ f (.inr (by simpa using h))).trans (report_chain cfg (_, []))
    · exact .refl
  · split
    · rename_i h
      simp only [Bool.and_eq_true] at h
      exact (failFan_chain cfg _ f _ (by simpa using h.1)).trans (fanEvent_chain cfg _)
    · exact .refl
  · exact .refl

/-- A loss of airflow is the recording of the clear input and then a chain of moves. -/
theorem airflowLost_chain (cfg : Settings) (f : Fan) (p : Plant) (h : (p.fan f).state = .running) :
    FanChain cfg (p.setFan f { p.fan f with airflow := false }) (airflowLost cfg f p) := by
  unfold airflowLost
  rw [if_pos h]
  exact (failFan_chain cfg _ f _ (by simp [h, FanState.inService])).trans (fanEvent_chain cfg _)

theorem expireIn_chain (cfg : Settings) (state : FanState) (f : Fan) (p : Plant) :
    FanChain cfg p (expireIn cfg state f p) := by
  unfold expireIn
  split
  · exact expireFan_chain cfg p f
  · exact .refl

theorem ramp_chain (cfg : Settings) (p : Plant) : FanChain cfg p (ramp cfg p) := by
  refine .single (.note (.of_fsq _ rfl fun f => ?_) rfl rfl rfl (fun f => ?_) (fun f => ?_) (fun f => ?_)) <;>
  · simp only [ramp, Plant.fan, PerFan.get_build]
    by_cases h : (p.fsq.fans.get f).state.ramped = true
    · have reach : (p.fsq.fans.get f).state.inReach = true := by
        cases hs : (p.fsq.fans.get f).state <;> simp_all [FanState.inReach, FanState.ramped]
      simp only [h, if_true, FanRec.inputs]
      split <;> simp [reach]
    · simp [h]

theorem retimeFans_chain (cfg : Settings) (old new : TimersBlock) (p : Plant) :
    FanChain cfg p (retimeFans cfg old new p) := by
  unfold retimeFans
  simp only
  have m : FanMove cfg p { p with fsq := { p.fsq with
      fans := .build fun f => (p.fan f).retime old new
      spacing := p.fsq.spacing.bind (rebase old.spacing new.spacing) } } := by
    refine .note (.of_fsq _ rfl fun f => ?_) rfl rfl rfl (fun f => ?_) (fun f => ?_) (fun f => ?_) <;>
    · simp only [Plant.fan, PerFan.get_build, FanRec.retime]
      split <;> simp [FanRec.inputs]
  have rest := foldl_chain (expireFan_chain cfg)
  split
  · exact ((Relation.ReflTransGen.single m).trans (rest _ _)).trans (testQueue_chain cfg _)
  · exact (Relation.ReflTransGen.single m).trans (rest _ _)

end Sys2Proof.Machine
end

