-- ==== Sys2Proof/Laws/FireSide.lean ====
section
/-! SUPPORT. What the handing-on of zone results, and the claim requests and fire updates that end with it, do to the
claim table and the dampers (R6, R7, R11, R14). -/

namespace Sys2Proof.Machine

@[simp] theorem changeDamper_zones (z : Zone) (f : Damper → Damper) (p : Plant) :
    (changeDamper z f p).zones = p.zones := by simp [changeDamper]

@[simp] theorem changeDamper_fireOrder (z : Zone) (f : Damper → Damper) (p : Plant) :
    (changeDamper z f p).fireOrder = p.fireOrder := by simp [changeDamper]

@[simp] theorem changeDamper_gal (z : Zone) (f : Damper → Damper) (p : Plant) :
    (changeDamper z f p).gal = p.gal := by simp [changeDamper]

@[simp] theorem changeDamper_fsq (z : Zone) (f : Damper → Damper) (p : Plant) :
    (changeDamper z f p).fsq = p.fsq := by simp [changeDamper]

@[simp] theorem changeDamper_spm (z : Zone) (f : Damper → Damper) (p : Plant) :
    (changeDamper z f p).spm = p.spm := by simp [changeDamper]

theorem changeDamper_damper (z y : Zone) (f : Damper → Damper) (p : Plant) :
    (changeDamper z f p).dampers.get y = if y = z then f (p.dampers.get y) else p.dampers.get y := by
  simp only [changeDamper, Plant.raiseIf_dampers, PerZone.get_set]
  split <;> simp_all

theorem changeDamper_events (z : Zone) (f : Damper → Damper) (p : Plant) (k : EventKind)
    (h : p.events.has k = true) : (changeDamper z f p).events.has k = true := by
  simp [changeDamper, h]

/-- Everything but dampers and events that a run of damper commands leaves alone. -/
structure Plant.SameButDampers (p q : Plant) : Prop where
  zones : q.zones = p.zones
  fireOrder : q.fireOrder = p.fireOrder
  gal : q.gal = p.gal
  fsq : q.fsq = p.fsq
  spm : q.spm = p.spm
  events : ∀ k, p.events.has k = true → q.events.has k = true

/-- Damper changes zone by zone over a list without repeats: each listed zone's damper changes once. -/
theorem foldl_dampers (f : Zone → Damper → Damper) (c : Zone → Bool) (l : List Zone) (h : l.Nodup) (p : Plant) :
    let q := l.foldl (fun q z => if c z then q else changeDamper z (f z) q) p
    p.SameButDampers q ∧
      ∀ z, q.dampers.get z = if z ∈ l ∧ c z = false then f z (p.dampers.get z) else p.dampers.get z := by
  induction l generalizing p with
  | nil => exact ⟨⟨rfl, rfl, rfl, rfl, rfl, fun _ h => h⟩, fun z => by simp⟩
  | cons a l ih =>
    obtain ⟨ha, hl⟩ := List.nodup_cons.mp h
    simp only [List.foldl_cons]
    cases hc : c a
    · obtain ⟨s, d⟩ := ih hl (changeDamper a (f a) p)
      simp only [Bool.false_eq_true, if_false]
      refine ⟨⟨by simpa using s.zones, by simpa using s.fireOrder, by simpa using s.gal, by simpa using s.fsq,
        by simpa using s.spm, fun k hk => s.events k (changeDamper_events a (f a) p k hk)⟩, fun z => ?_⟩
      have := d z
      rw [changeDamper_damper] at this
      by_cases hz : z = a
      · subst hz
        simp_all
      · simp_all
    · obtain ⟨s, d⟩ := ih hl p
      simp only [if_true]
      refine ⟨s, fun z => ?_⟩
      have := d z
      by_cases hz : z = a
      · subst hz
        simp_all
      · simp_all

/-- What a claim request changes beside the claim lists it is about, once the results are handed on. -/
structure Plant.HandedOn (cfg : Settings) (p q : Plant) : Prop where
  claims : ∀ z, (q.zones.get z).claims = (p.zones.get z).claims
  result : ∀ z, (q.zones.get z).result = resultOf (p.zones.get z).claims
  damper : ∀ z, q.dampers.get z =
    (p.dampers.get z).follow cfg.timers.travel (p.zones.get z).result (resultOf (p.zones.get z).claims)
  fireOrder : q.fireOrder = p.fireOrder
  spm : q.spm = p.spm
  budget : q.gal.budget = p.gal.budget
  hold : q.fsq.hold = p.fsq.hold
  inputs : ∀ f, (q.fan f).inputs = (p.fan f).inputs
  events : ∀ k, p.events.has k = true → q.events.has k = true

/-- The plant as CLA hands results on to the dampers, before the statuses and the pass. -/
def commanded (cfg : Settings) (p : Plant) : Plant :=
  commandDampers cfg p.zones ((recomputeResults p).raiseIf
    (Zone.all.any fun z => (p.zones.get z).result.notedChange ((recomputeResults p).zones.get z).result) .zoneChange)

theorem handOn_chain (cfg : Settings) (p : Plant) : FanChain cfg (commanded cfg p) (handOn cfg p) := by
  unfold handOn
  simp only
  split
  · exact (refreshStatus_chain cfg _).trans (runPass_chain cfg _)
  · exact refreshStatus_chain cfg _

theorem commanded_spec (cfg : Settings) (p : Plant) :
    (recomputeResults p).SameButDampers (commanded cfg p) ∧
      ∀ z, (commanded cfg p).dampers.get z =
        (p.dampers.get z).follow cfg.timers.travel (p.zones.get z).result (resultOf (p.zones.get z).claims) := by
  unfold commanded commandDampers
  obtain ⟨s, d⟩ := foldl_dampers
    (fun z => Damper.obey cfg.timers.travel ((resultOf (p.zones.get z).claims).directive == .opened))
    (fun z => decide ((p.zones.get z).result.directive = (resultOf (p.zones.get z).claims).directive))
    Zone.all Zone.all_nodup ((recomputeResults p).raiseIf
    (Zone.all.any fun z => (p.zones.get z).result.notedChange ((recomputeResults p).zones.get z).result) .zoneChange)
  simp only [decide_eq_true_eq] at s d
  simp only [recomputeResults, Plant.raiseIf_zones, PerZone.get_build] at s d ⊢
  refine ⟨⟨by simpa using s.zones, by simpa using s.fireOrder, by simpa using s.gal, by simpa using s.fsq,
    by simpa using s.spm, fun k hk => s.events k (by simp [hk])⟩, fun z => ?_⟩
  rw [d z]
  simp only [Zone.mem_all, true_and, decide_eq_false_iff_not, Plant.raiseIf_dampers, Damper.follow]
  split <;> simp_all

/-- The end of a claim request (R11). -/
theorem handOn_spec (cfg : Settings) (p : Plant) : p.HandedOn cfg (handOn cfg p) := by
  obtain ⟨s, d⟩ := commanded_spec cfg p
  have c := (handOn_chain cfg p).same
  refine ⟨fun z => ?_, fun z => ?_, fun z => ?_, ?_, ?_, ?_, ?_, fun f => ?_, fun k h => ?_⟩
  · rw [c.claims, s.zones]; simp [recomputeResults]
  · rw [c.result, s.zones]; simp [recomputeResults]
  · rw [c.dampers, d]
  · rw [c.fireOrder, s.fireOrder]; rfl
  · rw [c.spm, s.spm]; rfl
  · rw [c.budget, s.gal]; rfl
  · rw [c.hold, s.fsq]; rfl
  · rw [c.inputs, Plant.fan, s.fsq]; rfl
  · exact c.events k (s.events k h)

theorem handOn_setClaims (cfg : Settings) (z : Zone) (l : List Claim) (p : Plant) :
    p.Requested cfg z l (handOn cfg (p.setClaims z l)) := by
  have h := handOn_spec cfg (p.setClaims z l)
  have zone : ∀ y, ((p.setClaims z l).zones.get y).result = (p.zones.get y).result := fun y => by
    simp only [Plant.setClaims, PerZone.get_set]; split <;> simp_all
  refine ⟨?_, fun y hy => ?_, fun y => ?_, fun y => ?_, h.fireOrder, h.spm, h.budget, h.hold, h.inputs, h.events⟩
  · rw [h.claims]; simp [Plant.setClaims]
  · rw [h.claims]; simp [Plant.setClaims, PerZone.get_set_other _ hy]
  · rw [h.result, h.claims]
  · rw [h.damper, h.result, zone]; rfl

/-- A placement (R6). -/
theorem place_spec (cfg : Settings) (z : Zone) (c : Claim) (p : Plant) :
    p.Requested cfg z (placeIn c (p.zones.get z).claims) (place cfg z c p) := handOn_setClaims cfg z _ p

/-- A removal (R7). -/
theorem remove_spec (cfg : Settings) (z : Zone) (src : Source) (p : Plant) :
    p.Requested cfg z (withoutSource src (p.zones.get z).claims) (remove cfg z src p) := handOn_setClaims cfg z _ p

end Sys2Proof.Machine
end

