-- ==== Sys2Proof/Laws/Handling.lean ====
section
/-! SUPPORT. How handlings end and how taken frames are answered, and what the operations that reach the plant from the
state leave alone. -/

namespace Sys2Proof.Machine

/-! ## The end of a handling -/

theorem State.applyIfReady_eq {s : State} (h : s.NothingWaits) : s.applyIfReady = s := by
  unfold State.applyIfReady
  split
  · rename_i v hv
    exact absurd hv (h v)
  · rfl

/-- A handling in normal operation with no block waiting ends with the outputs brought up to date, and nothing more. -/
theorem State.settle_eq {s : State} (mode : s.mode = .normal) (h : s.NothingWaits) : s.settle = s.refreshPins := by
  simp [State.settle, State.finish, mode, State.applyIfReady_eq h]

theorem State.settle_other {s : State} (mode : s.mode ≠ .normal) : s.settle = s := by
  simp [State.settle, mode]

theorem State.inService_eq {s : State} {f : State → State} (h : s.Plain) (mode : (f s).mode = .normal)
    (waits : (f s).NothingWaits) : s.inService f = (f s).refreshPins := by
  simp [State.inService, h.1, State.settle_eq mode waits]

theorem State.inService_other {s : State} {f : State → State} (mode : s.mode ≠ .normal) : s.inService f = s := by
  simp [State.inService, mode]

/-- A taken frame answered, in normal operation with no block waiting afterwards (R177). -/
theorem State.answer_eq {s : State} {k : Byte} {h : Handler} (a : s.Addressed) (mode : (h s.hearB).1.mode = .normal)
    (waits : (h s.hearB).1.NothingWaits) :
    s.answer k h = ((h s.hearB).1.sendB (replyFrame s.bli.address k (h s.hearB).2)).refreshPins := by
  simp only [State.answer, a.2, if_false, a.1.1]
  exact State.settle_eq mode waits

/-! ## Lists and timers of the state -/

/-- What entering an inhibit does: it stands behind the entries whose time is no longer, and nothing else moves (R43). -/
theorem enterInhibit_split (e : Inhibit) (l : List Inhibit) :
    ∃ before after, l = before ++ after ∧ enterInhibit e l = before ++ e :: after ∧
      (∀ x ∈ before, x.remaining ≤ e.remaining) ∧ ∀ x xs, after = x :: xs → e.remaining < x.remaining := by
  induction l with
  | nil => exact ⟨[], [], rfl, rfl, by simp, by simp⟩
  | cons y ys ih =>
    unfold enterInhibit
    split
    · rename_i h
      exact ⟨[], y :: ys, rfl, rfl, by simp, by rintro x xs ⟨rfl, rfl⟩; exact h⟩
    · rename_i h
      obtain ⟨b, a, hl, he, hb, ha⟩ := ih
      exact ⟨y :: b, a, by simp [hl], by simp [he], by simpa using ⟨by omega, hb⟩, ha⟩

@[simp] theorem tickTimer_none : tickTimer none = none := rfl
@[simp] theorem tickTimer_some (n : Nat) : tickTimer (some n) = some (n - 1) := rfl

/-! ## What reaches the plant alone -/

/-- A fold of operations that change the plant alone changes the plant alone. -/
theorem foldl_onlyPlant {α : Type} {f : State → α → State} (h : ∀ s a, f s a = { s with plant := (f s a).plant })
    (l : List α) (s : State) : l.foldl f s = { s with plant := (l.foldl f s).plant } := by
  induction l generalizing s with
  | nil => rfl
  | cons a l ih =>
    simp only [List.foldl_cons]
    rw [ih (f s a), h s a]

theorem State.place_only (s : State) (z : Zone) (c : Claim) :
    s.place z c = { s with plant := (s.place z c).plant } := rfl

theorem State.placeContact_only (s : State) : s.placeContact = { s with plant := s.placeContact.plant } :=
  foldl_onlyPlant (fun _ _ => rfl) _ s

theorem State.removeContact_only (s : State) : s.removeContact = { s with plant := s.removeContact.plant } :=
  foldl_onlyPlant (fun _ _ => rfl) _ s

/-! ## Claims of one source -/

theorem Plant.OnlySource.refl (src : Source) (p : Plant) : p.OnlySource src p :=
  ⟨fun _ => rfl, rfl, fun _ => ⟨rfl, rfl⟩, rfl, rfl, rfl, fun _ => rfl, fun _ h => h⟩

theorem Plant.OnlySource.trans {src : Source} {p q r : Plant} (h : p.OnlySource src q) (k : q.OnlySource src r) :
    p.OnlySource src r :=
  ⟨fun z => (k.others z).trans (h.others z), k.fireOrder.trans h.fireOrder,
    fun z => ⟨(k.switches z).1.trans (h.switches z).1, (k.switches z).2.trans (h.switches z).2⟩, k.spm.trans h.spm,
    k.budget.trans h.budget, k.hold.trans h.hold, fun f => (k.inputs f).trans (h.inputs f),
    fun e x => k.events e (h.events e x)⟩

theorem Plant.SameFireSide.onlySource {p q : Plant} (h : p.SameFireSide q) (src : Source) : p.OnlySource src q :=
  ⟨fun z => by rw [h.claims], h.fireOrder, fun z => by rw [h.dampers]; exact ⟨rfl, rfl⟩, h.spm, h.budget, h.hold,
    h.inputs, h.events⟩

@[simp] theorem Damper.obey_switches (travel : Nat) (b : Bool) (d : Damper) :
    (d.obey travel b).openSwitch = d.openSwitch ∧ (d.obey travel b).closedSwitch = d.closedSwitch := by
  simp only [Damper.obey, Damper.testEnd, Damper.depart, Damper.home, Damper.fail]
  repeat' (first | split | exact ⟨rfl, rfl⟩)

@[simp] theorem Damper.follow_switches (travel : Nat) (old new : ZoneResult) (d : Damper) :
    (d.follow travel old new).openSwitch = d.openSwitch ∧ (d.follow travel old new).closedSwitch = d.closedSwitch := by
  unfold Damper.follow
  split <;> simp

@[simp] theorem withoutSource_withoutSource (src : Source) (l : List Claim) :
    withoutSource src (withoutSource src l) = withoutSource src l := by
  simp [withoutSource, List.filter_filter]

theorem withoutSource_enterClaim {src : Source} {c : Claim} (h : c.source = src) (l : List Claim) :
    withoutSource src (enterClaim c l) = withoutSource src l := by
  induction l with
  | nil => simp [enterClaim, withoutSource, h]
  | cons d ds ih =>
    unfold enterClaim
    split
    · simp [withoutSource, h]
    · simp only [withoutSource, List.filter_cons] at ih ⊢
      split <;> simp_all

theorem withoutSource_placeIn {src : Source} {c : Claim} (h : c.source = src) (l : List Claim) :
    withoutSource src (placeIn c l) = withoutSource src l := by
  rw [placeIn, withoutSource_enterClaim h, h, withoutSource_withoutSource]

theorem Plant.Requested.onlySource {cfg : Settings} {z : Zone} {l : List Claim} {p q : Plant} {src : Source}
    (h : p.Requested cfg z l q) (hl : withoutSource src l = withoutSource src (p.zones.get z).claims) :
    p.OnlySource src q := by
  refine ⟨fun y => ?_, h.fireOrder, fun y => ?_, h.spm, h.budget, h.hold, h.inputs, h.events⟩
  · by_cases hy : y = z
    · subst hy; rw [h.claims, hl]
    · rw [h.others y hy]
  · rw [h.damper y]; simp

theorem place_onlySource (cfg : Settings) (z : Zone) (c : Claim) (p : Plant) :
    p.OnlySource c.source (place cfg z c p) :=
  (place_spec cfg z c p).onlySource (withoutSource_placeIn rfl _)

theorem remove_onlySource (cfg : Settings) (z : Zone) (src : Source) (p : Plant) :
    p.OnlySource src (remove cfg z src p) :=
  (remove_spec cfg z src p).onlySource (by simp)

/-- What entering a claim in a ranked list does: it stands behind the claims above its level, and nothing else moves (R5). -/
theorem enterClaim_split (c : Claim) (l : List Claim) :
    ∃ before after, l = before ++ after ∧ enterClaim c l = before ++ c :: after ∧
      (∀ d ∈ before, c.level < d.level) ∧ ∀ d ds, after = d :: ds → d.level ≤ c.level := by
  induction l with
  | nil => exact ⟨[], [], rfl, rfl, by simp, by simp⟩
  | cons y ys ih =>
    unfold enterClaim
    split
    · rename_i h
      exact ⟨[], y :: ys, rfl, rfl, by simp, by rintro x xs ⟨rfl, rfl⟩; exact h⟩
    · rename_i h
      obtain ⟨b, a, hl, he, hb, ha⟩ := ih
      exact ⟨y :: b, a, by simp [hl], by simp [he], by simpa using ⟨by omega, hb⟩, ha⟩

/-- The claim of a source after its own placement is the one placed. -/
theorem claimOf_placeIn_self (c : Claim) (l : List Claim) : claimOf c.source (placeIn c l) = some c := by
  unfold placeIn
  have h : ∀ d ∈ withoutSource c.source l, d.source ≠ c.source := by simp [withoutSource]
  generalize withoutSource c.source l = m at h
  induction m with
  | nil => simp [enterClaim, claimOf]
  | cons d ds ih =>
    unfold enterClaim
    split
    · simp [claimOf]
    · have := ih fun x hx => h x (List.mem_cons_of_mem _ hx)
      simp only [claimOf, List.find?_cons] at this ⊢
      rw [beq_false_of_ne (h d (List.mem_cons_self ..)), this]

/-- The claim of a source in a list is that of the list without any one other source. -/
theorem claimOf_withoutSource {src other : Source} (h : src ≠ other) (l : List Claim) :
    claimOf src (withoutSource other l) = claimOf src l := by
  induction l with
  | nil => rfl
  | cons d ds ih =>
    simp only [claimOf, withoutSource, List.filter_cons, List.find?_cons] at ih ⊢
    by_cases hd : d.source = other
    · simp [hd, ih, beq_false_of_ne (Ne.symm h)]
    · simp only [bne_iff_ne, ne_eq, hd, not_false_eq_true, if_true, List.find?_cons, ih]

theorem claimOf_withoutSource_self (src : Source) (l : List Claim) : claimOf src (withoutSource src l) = none := by
  simp [claimOf, withoutSource]

theorem Plant.OnlySource.claimOf {src other : Source} {p q : Plant} (h : p.OnlySource other q) (hs : src ≠ other)
    (z : Zone) : claimOf src (q.zones.get z).claims = claimOf src (p.zones.get z).claims := by
  rw [← claimOf_withoutSource hs, h.others z, claimOf_withoutSource hs]

/-- A list without a claim of a source is itself without that source. -/
theorem withoutSource_eq_self {src : Source} {l : List Claim} (h : Machine.claimOf src l = none) :
    withoutSource src l = l := by
  simp only [Machine.claimOf, List.find?_eq_none] at h
  simpa [withoutSource, List.filter_eq_self] using h

end Sys2Proof.Machine
end

