-- ==== Sys2Proof/Laws/PlantMoves.lean ====
section
/-! SUPPORT. Everything that can happen to the plant, said once: each operation on it is a chain of the moves below, and
the effect of every command on the plant is such a chain, from the plant before it or from one of the plants with which
the part starts. -/

namespace Sys2Proof.Machine

/-! ## The moves -/

/-- From one plant to another, nothing has changed that the rules of Safety.lean speak of. -/
structure Plant.Alike (p q : Plant) : Prop where
  claims : ∀ z, (q.zones.get z).claims = (p.zones.get z).claims
  result : ∀ z, (q.zones.get z).result = (p.zones.get z).result
  fireOrder : q.fireOrder = p.fireOrder
  command : ∀ z, (q.dampers.get z).commandOpen = (p.dampers.get z).commandOpen
  queue : q.fsq.queue = p.fsq.queue
  arrival : q.fsq.nextArrival = p.fsq.nextArrival
  staged : q.fsq.staged = p.fsq.staged
  hold : q.fsq.hold = p.fsq.hold
  state : ∀ f, (q.fan f).state = (p.fan f).state
  run : ∀ f, (q.fan f).run = (p.fan f).run
  transfer : (q.spm.state = .transfer ↔ p.spm.state = .transfer)
  settle : q.spm.settle.isSome = p.spm.settle.isSome

/-- The claim lists and the fire order list changed, with nothing else yet. -/
structure Plant.Reclaimed (p q : Plant) : Prop where
  lists : ∀ z, ListRanked (p.zones.get z).claims → ListRanked (q.zones.get z).claims
  result : ∀ z, (q.zones.get z).result = (p.zones.get z).result
  order : (p.fireOrder.map FireEntry.zone).Nodup → (q.fireOrder.map FireEntry.zone).Nodup
  dampers : q.dampers = p.dampers
  fsq : q.fsq = p.fsq
  spm : q.spm = p.spm

/-- The plant as the supply is lost: SPM in TRANSFER with no settle delay, FSQ in supply hold (R158, R163). -/
def Plant.dropped (p : Plant) : Plant :=
  enterHold { p with spm := { p.spm with state := .transfer, settle := none } }

/-- One move of the plant. -/
inductive PlantMove : Plant → Plant → Prop
  /-- A move of the fan side. -/
  | fan {cfg : Settings} {p q : Plant} (move : FanMove cfg p q) : PlantMove p q
  /-- Nothing that the rules speak of. -/
  | alike {p q : Plant} (same : p.Alike q) : PlantMove p q
  /-- Claims changed, the results recomputed and handed on to the dampers (R11). -/
  | hand (cfg : Settings) {p q : Plant} (claims : p.Reclaimed q) : PlantMove p (commanded cfg q)
  /-- A fan is locked, out of the queue if it was queued (R156). -/
  | lock {p : Plant} (f : Fan) (r : FanRec) (inputs : r.inputs = (p.fan f).inputs) (state : r.state = .locked)
      (run : r.run = false) : PlantMove p ((if (p.fan f).state = .queued then p.leave f else p).setFan f r)
  /-- A TRIPPED or LOCKED fan is returned to service (R157). -/
  | free {p : Plant} (f : Fan) (r : FanRec) (inputs : r.inputs = (p.fan f).inputs)
      (was : (p.fan f).state.inReach = false) (state : r.state = .off) (run : r.run = (p.fan f).run) :
      PlantMove p (p.setFan f r)
  /-- The supply is lost (R158, R163). -/
  | drop (p : Plant) : PlantMove p p.dropped
  /-- The supply returns and settles (R164). -/
  | back {p : Plant} (was : p.spm.state = .transfer) (next : SupplyState) (now : next ≠ .transfer) (n : Nat) :
      PlantMove p { p with spm := { p.spm with state := next, settle := some n } }
  /-- The settle delay ends (R164). -/
  | settled {p : Plant} (was : p.spm.settle.isSome = true) :
      PlantMove p { p with spm := { p.spm with settle := none }, fsq := { p.fsq with hold := false } }

/-- A chain of moves. -/
abbrev PlantChain : Plant → Plant → Prop := Relation.ReflTransGen PlantMove

theorem PlantChain.keeps {I : Plant → Prop} (move : ∀ {p q}, PlantMove p q → I p → I q) {p q : Plant}
    (h : PlantChain p q) (hp : I p) : I q := by
  induction h with
  | refl => exact hp
  | tail _ m ih => exact move m ih

theorem FanChain.chain {cfg : Settings} {p q : Plant} (h : FanChain cfg p q) : PlantChain p q :=
  Relation.ReflTransGen.mono (p := PlantMove) (fun _ _ m => PlantMove.fan m) p q h

theorem Plant.Alike.chain {p q : Plant} (h : p.Alike q) : PlantChain p q := .single (.alike h)

theorem Plant.Alike.refl (p : Plant) : p.Alike p :=
  ⟨fun _ => rfl, fun _ => rfl, rfl, fun _ => rfl, rfl, rfl, rfl, rfl, fun _ => rfl, fun _ => rfl, .rfl, rfl⟩

/-- A fold of chains is a chain. -/
theorem foldl_moves {α : Type} {f : Plant → α → Plant} (h : ∀ p a, PlantChain p (f p a)) (l : List α) (p : Plant) :
    PlantChain p (l.foldl f p) := by
  induction l generalizing p with
  | nil => exact .refl
  | cons a l ih => exact (h p a).trans (ih _)

/-! ## Claim lists in order (R2, R5, R6, R7) -/

theorem ListRanked.withoutSource {l : List Claim} (h : ListRanked l) (src : Source) :
    ListRanked (withoutSource src l) :=
  ⟨h.1.filter _, h.2.sublist (List.Sublist.map _ List.filter_sublist)⟩

theorem mem_enterClaim {c d : Claim} {l : List Claim} : d ∈ enterClaim c l ↔ d = c ∨ d ∈ l := by
  induction l with
  | nil => simp [enterClaim]
  | cons e es ih =>
    unfold enterClaim
    split
    · simp
    · simp only [List.mem_cons, ih]
      exact or_left_comm

theorem enterClaim_pairwise (c : Claim) {l : List Claim} (h : l.Pairwise fun a b => b.level ≤ a.level) :
    (enterClaim c l).Pairwise fun a b => b.level ≤ a.level := by
  induction l with
  | nil => simp [enterClaim]
  | cons e es ih =>
    obtain ⟨he, hes⟩ := List.pairwise_cons.mp h
    unfold enterClaim
    split
    · rename_i hle
      refine List.pairwise_cons.mpr ⟨fun x hx => ?_, h⟩
      rcases List.mem_cons.mp hx with rfl | hx
      · exact hle
      · exact Nat.le_trans (he x hx) hle
    · refine List.pairwise_cons.mpr ⟨fun x hx => ?_, ih hes⟩
      rcases mem_enterClaim.mp hx with rfl | hx
      · omega
      · exact he x hx

theorem enterClaim_nodup {c : Claim} {l : List Claim} (h : (l.map Claim.source).Nodup)
    (new : ∀ d ∈ l, d.source ≠ c.source) : ((enterClaim c l).map Claim.source).Nodup := by
  induction l with
  | nil => simp [enterClaim]
  | cons e es ih =>
    obtain ⟨he, hes⟩ := List.nodup_cons.mp h
    unfold enterClaim
    split
    · refine List.nodup_cons.mpr ⟨fun x => ?_, h⟩
      obtain ⟨d, hd, heq⟩ := List.mem_map.mp x
      exact new d hd heq
    · refine List.nodup_cons.mpr ⟨fun x => ?_, ih hes fun d hd => new d (List.mem_cons_of_mem _ hd)⟩
      obtain ⟨d, hd, heq⟩ := List.mem_map.mp x
      rcases mem_enterClaim.mp hd with rfl | hd
      · exact new e (List.mem_cons_self ..) heq.symm
      · exact he (List.mem_map.mpr ⟨d, hd, heq⟩)

theorem ListRanked.placeIn {l : List Claim} (h : ListRanked l) (c : Claim) : ListRanked (placeIn c l) :=
  ⟨enterClaim_pairwise c (h.withoutSource c.source).1,
    enterClaim_nodup (h.withoutSource c.source).2 fun d hd => by simpa [Machine.withoutSource] using (List.mem_filter.mp hd).2⟩

theorem ListRanked.alignFireLink {l : List Claim} (h : ListRanked l) (was now : Bool) :
    ListRanked (alignFireLink was now l) := by
  cases was <;> cases now <;> first | exact h | exact h.placeIn _ | exact h.withoutSource _

theorem ListRanked.alignAdjacency {l : List Claim} (h : ListRanked l) (origins : List Zone) :
    ListRanked (alignAdjacency origins l) := by
  unfold Machine.alignAdjacency
  split
  · exact h
  · exact h.withoutSource _
  · split
    · exact h
    · exact h.placeIn _
  · exact h.placeIn _

/-- The fire order list after a fire update names no zone twice (R12, R14). -/
theorem updateFireOrder_nodup (map : BitVec 8) (reset : Bool) {l : List FireEntry}
    (h : (l.map FireEntry.zone).Nodup) : ((updateFireOrder map reset l).map FireEntry.zone).Nodup := by
  have added : ((appendAlarms map l).map FireEntry.zone).Nodup := by
    simp only [appendAlarms, List.map_append, List.map_map]
    refine List.nodup_append.mpr ⟨h, ?_, fun a ha b hb => ?_⟩
    · rw [show (FireEntry.zone ∘ fun z => ({ zone := z, alarmPresent := true } : FireEntry)) = id from rfl, List.map_id]
      exact Zone.all_nodup.filter _
    · rintro rfl
      rw [show (FireEntry.zone ∘ fun z => ({ zone := z, alarmPresent := true } : FireEntry)) = id from rfl, List.map_id] at hb
      have := (List.mem_filter.mp hb).2
      simp only [Bool.and_eq_true, Bool.not_eq_true', List.any_eq_false, beq_iff_eq] at this
      obtain ⟨e, he, rfl⟩ := List.mem_map.mp ha
      exact this.2 e he rfl
  have marked : ((markAlarms map (appendAlarms map l)).map FireEntry.zone).Nodup := by
    rw [markAlarms, List.map_map]
    exact added
  unfold updateFireOrder
  simp only
  split
  · exact marked.sublist (List.Sublist.map _ List.filter_sublist)
  · exact marked

/-! ## The operations on the plant as chains -/

theorem raise_moves (p : Plant) (k : EventKind) : PlantChain p (p.raise k) :=
  Plant.Alike.chain ⟨fun _ => rfl, fun _ => rfl, rfl, fun _ => rfl, rfl, rfl, rfl, rfl, fun _ => rfl, fun _ => rfl, .rfl, rfl⟩

theorem raiseIf_moves (p : Plant) (b : Bool) (k : EventKind) : PlantChain p (p.raiseIf b k) := by
  cases b
  · exact .refl
  · exact raise_moves p k

theorem handOn_moves (cfg : Settings) {p q : Plant} (h : p.Reclaimed q) : PlantChain p (handOn cfg q) :=
  (Relation.ReflTransGen.single (.hand cfg h)).trans (handOn_chain cfg q).chain

theorem setClaims_reclaimed (p : Plant) (z : Zone) {l : List Claim}
    (h : ListRanked (p.zones.get z).claims → ListRanked l) : p.Reclaimed (p.setClaims z l) := by
  refine ⟨fun y hy => ?_, fun y => ?_, fun h => h, rfl, rfl, rfl⟩ <;> simp only [Plant.setClaims, PerZone.get_set]
  · split
    · rename_i e
      subst e
      exact h hy
    · exact hy
  · split
    · rename_i e
      subst e
      rfl
    · rfl

theorem place_moves (cfg : Settings) (z : Zone) (c : Claim) (p : Plant) : PlantChain p (place cfg z c p) :=
  handOn_moves cfg (setClaims_reclaimed p z fun h => h.placeIn c)

theorem remove_moves (cfg : Settings) (z : Zone) (src : Source) (p : Plant) : PlantChain p (remove cfg z src p) :=
  handOn_moves cfg (setClaims_reclaimed p z fun h => h.withoutSource src)

theorem fireUpdate_moves (cfg : Settings) (map : BitVec 8) (reset : Bool) (p : Plant) :
    PlantChain p (fireUpdate cfg map reset p) := by
  unfold fireUpdate
  simp only
  refine handOn_moves cfg ⟨fun z h => ?_, fun z => ?_, fun h => ?_, ?_, ?_, ?_⟩
  · simp only [Plant.raiseIf_zones, PerZone.get_build]
    split
    · exact h.alignFireLink _ _
    · exact (h.alignFireLink _ _).alignAdjacency _
  · simp
  · simpa using updateFireOrder_nodup map reset h
  · simp
  · simp
  · simp

/-- A damper change that keeps the command, with what follows it (R112). -/
theorem damperEvent_moves (cfg : Settings) (z : Zone) (f : Damper → Damper) (keep : ∀ d, (f d).commandOpen = d.commandOpen)
    (p : Plant) : PlantChain p (damperEvent cfg z f p) := by
  have first : PlantChain p (refreshStatus cfg (changeDamper z f p)) := by
    refine (Plant.Alike.chain ⟨fun y => ?_, fun y => ?_, ?_, fun y => ?_, ?_, ?_, ?_, ?_, fun g => ?_, fun g => ?_, ?_, ?_⟩).trans
      (refreshStatus_chain cfg _).chain
    case refine_4 =>
      rw [changeDamper_damper]
      split
      · exact keep _
      · rfl
    all_goals simp [Plant.fan]
  unfold damperEvent
  simp only
  split
  · exact first
  · exact first.trans (runPass_chain cfg _).chain

theorem budget_moves (p : Plant) (n : Nat) : PlantChain p { p with gal := { p.gal with budget := n } } :=
  Plant.Alike.chain ⟨fun _ => rfl, fun _ => rfl, rfl, fun _ => rfl, rfl, rfl, rfl, rfl, fun _ => rfl, fun _ => rfl, .rfl, rfl⟩

theorem budgetChange_moves (cfg : Settings) (cap : Option Nat) (p : Plant) : PlantChain p (budgetChange cfg cap p) := by
  unfold budgetChange
  simp only
  split
  · exact budget_moves p _
  · exact (budget_moves p _).trans (runPass_chain cfg _).chain

theorem supplyReport_moves (cfg : Settings) (cap : Option Nat) (p : Plant) : PlantChain p (supplyReport cfg cap p) :=
  (budget_moves p _).trans (runPass_chain cfg _).chain

theorem enterTransfer_moves (cfg : Settings) (cap : Option Nat) (p : Plant) : PlantChain p (enterTransfer cfg cap p) :=
  (((Relation.ReflTransGen.single (.drop p)).trans (refreshStatus_chain cfg _).chain).trans
    (supplyReport_moves cfg cap _)).trans (raise_moves _ _)

theorem supplyReport_same (cfg : Settings) (cap : Option Nat) (p : Plant) :
    (setBudgetInForce cfg cap p).SameFireSide (supplyReport cfg cap p) := (runPass_chain cfg _).same

@[simp] theorem supplyReport_spm (cfg : Settings) (cap : Option Nat) (p : Plant) :
    (supplyReport cfg cap p).spm = p.spm := (supplyReport_same cfg cap p).spm

@[simp] theorem refreshStatus_spm (cfg : Settings) (p : Plant) : (refreshStatus cfg p).spm = p.spm :=
  (refreshStatus_chain cfg p).same.spm

@[simp] theorem enterTransfer_spm (cfg : Settings) (cap : Option Nat) (p : Plant) :
    (enterTransfer cfg cap p).spm = { p.spm with state := .transfer, settle := none } := by
  simp [enterTransfer, enterHold]

theorem returnSupply_moves (cfg : Settings) (cap : Option Nat) {next : SupplyState} (now : next ≠ .transfer) (p : Plant)
    (was : p.spm.state = .transfer) : PlantChain p (returnSupply cfg cap next p) :=
  ((Relation.ReflTransGen.single (.back was next now _)).trans (supplyReport_moves cfg cap _)).trans (raise_moves _ _)

theorem closedTransition_moves (cfg : Settings) (cap : Option Nat) (p : Plant) (was : p.spm.state ≠ .transfer) :
    PlantChain p (closedTransition cfg cap p) := by
  have first : p.Alike { p with spm := { p.spm with state := .mains } } :=
    ⟨fun _ => rfl, fun _ => rfl, rfl, fun _ => rfl, rfl, rfl, rfl, rfl, fun _ => rfl, fun _ => rfl,
      ⟨(fun h => nomatch h), fun h => absurd h was⟩, rfl⟩
  exact (first.chain.trans (supplyReport_moves cfg cap _)).trans (raise_moves _ _)

theorem changeSupply_moves (cfg : Settings) (cap : Option Nat) (next : SupplyState) (p : Plant) :
    PlantChain p (changeSupply cfg cap next p) := by
  unfold changeSupply
  split <;> rename_i h
  · exact .refl
  · exact .refl
  · exact .refl
  · exact enterTransfer_moves cfg cap p
  · exact enterTransfer_moves cfg cap p
  · exact returnSupply_moves cfg cap (by decide) p h
  · exact returnSupply_moves cfg cap (by decide) p h
  · exact closedTransition_moves cfg cap p (by rw [h]; decide)
  · exact (enterTransfer_moves cfg cap p).trans (returnSupply_moves cfg cap (by decide) _ (by simp))

theorem changeSupplyInput_moves (cfg : Settings) (cap : Option Nat) (i : SupplyInput) (b : Bool) (p : Plant) :
    PlantChain p (changeSupplyInput cfg cap i b p) := by
  have first : p.Alike { p with spm := p.spm.setLevel i b } := by
    cases i <;> exact ⟨fun _ => rfl, fun _ => rfl, rfl, fun _ => rfl, rfl, rfl, rfl, rfl, fun _ => rfl, fun _ => rfl, .rfl, rfl⟩
  exact first.chain.trans (changeSupply_moves cfg cap _ _)

theorem endSettle_moves (cfg : Settings) (cap : Option Nat) (p : Plant) (was : p.spm.settle.isSome = true) :
    PlantChain p (endSettle cfg cap p) :=
  ((Relation.ReflTransGen.single (.settled was)).trans (testQueue_chain cfg _).chain).trans (supplyReport_moves cfg cap _)

/-- A fan record changed in nothing but its inputs, timers or figures. -/
theorem setFan_moves (p : Plant) (f : Fan) (r : FanRec) (state : r.state = (p.fan f).state) (run : r.run = (p.fan f).run) :
    PlantChain p (p.setFan f r) := by
  refine Plant.Alike.chain ⟨fun _ => rfl, fun _ => rfl, rfl, fun _ => rfl, rfl, rfl, rfl, rfl, fun g => ?_, fun g => ?_, .rfl, rfl⟩ <;>
  · rw [Plant.setFan_fan]
    split
    · rename_i e
      subst e
      assumption
    · rfl

theorem changeDriveInput_moves (cfg : Settings) (f : Fan) (i : DriveInput) (b : Bool) (p : Plant) :
    PlantChain p (changeDriveInput cfg f i b p) := by
  by_cases h : (p.fan f).level i = b
  · simp [changeDriveInput, h]
    exact .refl
  · exact (setFan_moves p f _ (by simp) (by cases i <;> rfl)).trans (changeDriveInput_chain cfg f i b p h).chain

theorem airflowLost_moves (cfg : Settings) (f : Fan) (p : Plant) : PlantChain p (airflowLost cfg f p) := by
  by_cases h : (p.fan f).state = .running
  · exact (setFan_moves p f { p.fan f with airflow := false } rfl rfl).trans (airflowLost_chain cfg f p h).chain
  · simp only [airflowLost, h, if_false]
    exact .refl

theorem lockPlantFan_moves (cfg : Settings) (f : Fan) (p : Plant) : PlantChain p (lockPlantFan cfg f p) := by
  have first : PlantChain p ((if (p.fan f).state = .queued then p.leave f else p).setFan f
      ((if (p.fan f).state = .queued then p.leave f else p).fan f).lock) := by
    refine .single (.lock f _ ?_ rfl rfl)
    split <;> simp [FanRec.inputs, FanRec.lock, FanRec.release, Plant.fan]
  exact (first.trans (refreshStatus_chain cfg _).chain).trans (takeReport_chain cfg _ f).chain

theorem returnPlantFan_moves (cfg : Settings) (f : Fan) (p : Plant) (was : (p.fan f).state.inReach = false) :
    PlantChain p (returnPlantFan cfg f p) :=
  ((Relation.ReflTransGen.single (.free f _ rfl was rfl rfl)).trans (refreshStatus_chain cfg _).chain).trans
    (runPass_chain cfg _).chain

theorem tick_moves (p : Plant) : PlantChain p p.tick := by
  refine Plant.Alike.chain ⟨fun _ => rfl, fun _ => rfl, rfl, fun z => ?_, rfl, rfl, rfl, rfl, fun f => ?_, fun f => ?_, .rfl, ?_⟩
  · simp [Plant.tick]
  · simp [Plant.tick, Plant.fan]
  · simp [Plant.tick, Plant.fan]
  · simp only [Plant.tick]
    cases p.spm.settle <;> rfl

end Sys2Proof.Machine
end

