-- ==== Sys2Proof/Laws/Kept.lean ====
section
/-! SUPPORT. What every move of the plant keeps: the claim table in order, the dampers commanded by their directives, the
start queue, at most one fan in STARTING, and the supply hold. -/

namespace Sys2Proof.Machine

/-! ## What each move keeps -/

@[simp] theorem Damper.obey_commandOpen (travel : Nat) (b : Bool) (d : Damper) : (d.obey travel b).commandOpen = b := by
  simp only [Damper.obey, Damper.testEnd, Damper.depart, Damper.home, Damper.fail]
  repeat' split
  all_goals first | assumption | rfl

theorem PlantMove.tableOk {p q : Plant} (m : PlantMove p q) (h : p.TableOk) : q.TableOk := by
  cases m with
  | fan move =>
    have s := move.same
    exact ⟨fun z => by rw [s.claims, s.result]; exact h.1 z, by rw [s.fireOrder]; exact h.2⟩
  | alike s => exact ⟨fun z => by rw [s.claims, s.result]; exact h.1 z, by rw [s.fireOrder]; exact h.2⟩
  | @hand cfg _ q' r =>
    obtain ⟨c, -⟩ := commanded_spec cfg q'
    refine ⟨fun z => ?_, ?_⟩
    · rw [c.zones]
      simp only [recomputeResults, PerZone.get_build, and_true]
      exact r.lists z (h.1 z).1
    · rw [c.fireOrder]
      exact r.order h.2
  | lock f r inputs state run =>
    split
    · have s := Plant.SameFireSide.of_leave p f
      exact ⟨fun z => by simp only [Plant.setFan_zones]; rw [s.claims, s.result]; exact h.1 z, by simp only [Plant.setFan_fireOrder]; rw [s.fireOrder]; exact h.2⟩
    · exact h
  | free => exact h
  | drop => exact h
  | back => exact h
  | settled => exact h

theorem PlantMove.commandsFollow {p q : Plant} (m : PlantMove p q) (h : p.CommandsFollow) : q.CommandsFollow := by
  cases m with
  | fan move =>
    have s := move.same
    exact fun z => by rw [s.dampers, s.result]; exact h z
  | alike s => exact fun z => by rw [s.command, s.result]; exact h z
  | @hand cfg _ q' r =>
    obtain ⟨c, d⟩ := commanded_spec cfg q'
    intro z
    rw [d, c.zones]
    simp only [recomputeResults, PerZone.get_build, Damper.follow]
    rw [r.dampers, r.result]
    split
    · rename_i e
      rw [h z, e]
    · simp
  | lock f r inputs state run =>
    split
    · have s := Plant.SameFireSide.of_leave p f
      exact fun z => by simp only [Plant.setFan_zones, Plant.setFan_dampers]; rw [s.dampers, s.result]; exact h z
    · exact h
  | free => exact h
  | drop => exact h
  | back => exact h
  | settled => exact h

theorem QueueEntry.ahead_total {a b : QueueEntry} (h : a.ahead b = false) (ne : a.arrival ≠ b.arrival) :
    b.ahead a = true := by
  simp only [QueueEntry.ahead] at *
  cases ha : a.fire <;> cases hb : b.fire <;> simp_all <;> omega

theorem QueueEntry.ahead_trans {a b c : QueueEntry} (h : a.ahead b = true) (k : b.ahead c = true) :
    a.ahead c = true := by
  simp only [QueueEntry.ahead] at *
  cases ha : a.fire <;> cases hb : b.fire <;> cases hc : c.fire <;> simp_all <;> omega

theorem enterQueue_perm (e : QueueEntry) (l : List QueueEntry) : (enterQueue e l).Perm (e :: l) := by
  induction l with
  | nil => exact .refl _
  | cons x xs ih =>
    unfold enterQueue
    split
    · exact .refl _
    · exact (ih.cons x).trans (.swap ..)

theorem enterQueue_pairwise {e : QueueEntry} {l : List QueueEntry} (h : l.Pairwise fun a b => a.ahead b = true)
    (new : ∀ x ∈ l, x.arrival ≠ e.arrival) : (enterQueue e l).Pairwise fun a b => a.ahead b = true := by
  induction l with
  | nil => simp [enterQueue]
  | cons x xs ih =>
    obtain ⟨hx, hxs⟩ := List.pairwise_cons.mp h
    unfold enterQueue
    split
    · rename_i he
      refine List.pairwise_cons.mpr ⟨fun y hy => ?_, h⟩
      rcases List.mem_cons.mp hy with rfl | hy
      · exact he
      · exact QueueEntry.ahead_trans he (hx y hy)
    · rename_i he
      refine List.pairwise_cons.mpr ⟨fun y hy => ?_, ih hxs fun y hy => new y (List.mem_cons_of_mem _ hy)⟩
      rcases List.mem_cons.mp ((enterQueue_perm e xs).mem_iff.mp hy) with rfl | hy
      · exact QueueEntry.ahead_total (by simpa using he) (fun h => new x (List.mem_cons_self ..) h.symm)
      · exact hx y hy

theorem sortQueue_perm (l : List QueueEntry) : (sortQueue l).Perm l := by
  induction l with
  | nil => exact .refl _
  | cons x xs ih => exact (enterQueue_perm x _).trans (ih.cons x)

theorem sortQueue_pairwise {l : List QueueEntry} (h : (l.map QueueEntry.arrival).Nodup) :
    (sortQueue l).Pairwise fun a b => a.ahead b = true := by
  induction l with
  | nil => exact .nil
  | cons x xs ih =>
    obtain ⟨hx, hxs⟩ := List.nodup_cons.mp h
    refine enterQueue_pairwise (ih hxs) fun y hy e => hx ?_
    exact List.mem_map.mpr ⟨y, (sortQueue_perm xs).mem_iff.mp hy, e⟩


@[simp] theorem Plant.leave_queue (p : Plant) (f : Fan) :
    (p.leave f).fsq.queue = p.fsq.queue.filter fun e => e.fan != f := by
  unfold Plant.leave Plant.unstageFan
  split
  · split <;> rfl
  · rfl

@[simp] theorem Plant.leave_nextArrival (p : Plant) (f : Fan) : (p.leave f).fsq.nextArrival = p.fsq.nextArrival := by
  unfold Plant.leave Plant.unstageFan
  split
  · split <;> rfl
  · rfl

theorem Plant.leave_staged {p : Plant} {f : Fan} {x : Staged} (h : (p.leave f).fsq.staged = some x) :
    p.fsq.staged = some x ∧ x.fan ≠ f := by
  unfold Plant.leave Plant.unstageFan at h
  split at h <;> rename_i hs
  · split at h
    · simp [Plant.unstage] at h
    · rename_i hf
      simp only [hs, Option.some.injEq] at h
      subst h
      exact ⟨hs, hf⟩
  · rw [hs] at h
    exact nomatch h

@[simp] theorem Plant.join_queue (p : Plant) (f : Fan) :
    (p.join f).fsq.queue = enterQueue { fan := f, fire := (p.fan f).fire, arrival := p.fsq.nextArrival } p.fsq.queue := by
  unfold Plant.join
  simp only
  split <;> rfl

@[simp] theorem Plant.join_nextArrival (p : Plant) (f : Fan) : (p.join f).fsq.nextArrival = p.fsq.nextArrival + 1 := by
  unfold Plant.join
  simp only
  split <;> rfl

theorem Plant.join_staged {p : Plant} {f : Fan} {x : Staged} (h : (p.join f).fsq.staged = some x) :
    p.fsq.staged = some x ∧ ((p.fan f).fire = true → p.stagedNormal = false) := by
  unfold Plant.join at h
  simp only at h
  split at h
  · simp [Plant.unstage] at h
  · rename_i hc
    refine ⟨h, fun hf => ?_⟩
    simpa [hf] using hc

/-- The start queue's rules, for a queue and the states of the fans. -/
theorem Plant.QueueOk.of_same {p q : Plant} (h : p.QueueOk) (queue : q.fsq.queue = p.fsq.queue)
    (arrival : q.fsq.nextArrival = p.fsq.nextArrival)
    (staged : ∀ x, q.fsq.staged = some x → (p.fsq.queue.head?.map QueueEntry.fan) = some x.fan)
    (state : ∀ f, (q.fan f).state = .queued ↔ (p.fan f).state = .queued) : q.QueueOk := by
  obtain ⟨h1, h2, h3, h4, h5, h6⟩ := h
  refine ⟨fun e he => ?_, ?_, ?_, fun f hf => ?_, ?_, fun x hx => ?_⟩
  · rw [queue] at he
    rw [state, arrival]
    exact h1 e he
  · rw [queue]; exact h2
  · rw [queue]; exact h3
  · rw [queue]; exact h4 f ((state f).mp hf)
  · rw [queue]; exact h5
  · rw [queue]; exact staged x hx

theorem Plant.QueueOk.setFan_unqueued {p : Plant} (h : p.QueueOk) (f : Fan) (r : FanRec) (was : (p.fan f).state ≠ .queued)
    (now : r.state ≠ .queued) : (p.setFan f r).QueueOk :=
  h.of_same rfl rfl h.2.2.2.2.2 fun g => by
    rw [Plant.setFan_fan]
    split
    · rename_i e
      subst e
      exact ⟨fun x => absurd x now, fun x => absurd x was⟩
    · exact .rfl

theorem Plant.QueueOk.leave {p : Plant} (h : p.QueueOk) (f : Fan) (r : FanRec) (hr : r.state ≠ .queued)
    (spacing : Option Nat) :
    (Plant.setFan { p.leave f with fsq := { (p.leave f).fsq with spacing := spacing } } f r).QueueOk := by
  obtain ⟨h1, h2, h3, h4, h5, h6⟩ := h
  have fan : ∀ g, (Plant.setFan { p.leave f with fsq := { (p.leave f).fsq with spacing := spacing } } f r).fan g =
      if g = f then r else p.fan g := fun g => by
    rw [Plant.setFan_fan]
    simp [Plant.fan]
  refine ⟨fun e he => ?_, ?_, ?_, fun g hg => ?_, ?_, fun x hx => ?_⟩
  · simp only [Plant.setFan_fsq, Plant.leave_queue, List.mem_filter, bne_iff_ne, ne_eq] at he
    rw [fan, if_neg he.2]
    simpa using h1 e he.1
  · simpa using h2.sublist (List.Sublist.map _ List.filter_sublist)
  · simpa using h3.sublist (List.Sublist.map _ List.filter_sublist)
  · rw [fan] at hg
    split at hg
    · exact absurd hg hr
    · rename_i hne
      obtain ⟨e, he, rfl⟩ := List.mem_map.mp (h4 g hg)
      simp only [Plant.setFan_fsq, Plant.leave_queue]
      exact List.mem_map.mpr ⟨e, List.mem_filter.mpr ⟨he, by simpa using hne⟩, rfl⟩
  · simpa using h5.filter _
  · simp only [Plant.setFan_fsq, Plant.leave_queue] at hx ⊢
    obtain ⟨hs, hf⟩ := Plant.leave_staged hx
    have := h6 x hs
    cases hq : p.fsq.queue with
    | nil => rw [hq] at this; simp at this
    | cons e es =>
      rw [hq] at this
      simp only [List.head?_cons, Option.map_some, Option.some.injEq] at this
      simp [this, hf]

theorem Plant.QueueOk.join {p : Plant} (h : p.QueueOk) (f : Fan) (r : FanRec) (was : (p.fan f).state ≠ .queued)
    (hr : r.state = .queued) : ((p.setFan f r).join f).QueueOk := by
  obtain ⟨h1, h2, h3, h4, h5, h6⟩ := h
  have notin : ∀ e ∈ p.fsq.queue, e.fan ≠ f := fun e he hf => was (hf ▸ (h1 e he).1)
  have fan : ∀ g, ((p.setFan f r).join f).fan g = if g = f then r else p.fan g := fun g => by
    rw [← Plant.setFan_fan]
    simp [Plant.fan]
  refine ⟨fun e he => ?_, ?_, ?_, fun g hg => ?_, ?_, fun x hx => ?_⟩
  · simp only [Plant.join_queue, Plant.setFan_fsq] at he
    rw [fan]
    simp only [Plant.join_nextArrival, Plant.setFan_fsq]
    rcases List.mem_cons.mp ((enterQueue_perm _ _).mem_iff.mp he) with rfl | he
    · simp [hr]
    · rw [if_neg (notin e he)]
      exact ⟨(h1 e he).1, Nat.lt_succ_of_lt (h1 e he).2⟩
  · simp only [Plant.join_queue, Plant.setFan_fsq]
    refine ((enterQueue_perm _ _).map _).nodup_iff.mpr (List.nodup_cons.mpr ⟨fun x => ?_, h2⟩)
    obtain ⟨e, he, hf⟩ := List.mem_map.mp x
    exact notin e he hf
  · simp only [Plant.join_queue, Plant.setFan_fsq]
    refine ((enterQueue_perm _ _).map _).nodup_iff.mpr (List.nodup_cons.mpr ⟨fun x => ?_, h3⟩)
    obtain ⟨e, he, hf⟩ := List.mem_map.mp x
    have := (h1 e he).2
    simp only at hf
    omega
  · rw [fan] at hg
    simp only [Plant.join_queue, Plant.setFan_fsq]
    refine ((enterQueue_perm _ _).map _).mem_iff.mpr ?_
    split at hg
    · rename_i e
      subst e
      simp
    · exact List.mem_cons_of_mem _ (h4 g hg)
  · simp only [Plant.join_queue, Plant.setFan_fsq]
    refine enterQueue_pairwise h5 fun x hx e => ?_
    have := (h1 x hx).2
    simp only at e
    omega
  · obtain ⟨hs, hn⟩ := Plant.join_staged hx
    have := h6 x hs
    simp only [Plant.join_queue, Plant.setFan_fsq]
    cases hq : p.fsq.queue with
    | nil => rw [hq] at this; simp at this
    | cons e es =>
      rw [hq] at this
      simp only [List.head?_cons, Option.map_some, Option.some.injEq] at this
      unfold enterQueue
      split
      · rename_i ha
        exfalso
        simp only [QueueEntry.ahead] at ha
        have late := (h1 e (by rw [hq]; simp)).2
        simp only [Plant.setFan_fan_self] at ha hn
        have : (p.setFan f r).stagedNormal = true := by
          simp only [Plant.stagedNormal, Plant.setFan_fsq, hq, List.any_cons]
          cases hef : e.fire <;> (simp_all; try omega)
        cases hrf : r.fire
        · simp only [hrf] at ha
          cases hef : e.fire <;> (simp_all; try omega)
        · rw [hn hrf] at this
          exact nomatch this
      · simpa using this

theorem retest_queue (cfg : Settings) (p : Plant) : (retest cfg p).fsq.queue = p.fsq.queue := by
  unfold retest
  split
  · rfl
  · rfl
  · split
    · simp only
      split <;> rfl
    · rfl

theorem retest_nextArrival (cfg : Settings) (p : Plant) : (retest cfg p).fsq.nextArrival = p.fsq.nextArrival := by
  unfold retest
  split
  · rfl
  · rfl
  · split
    · simp only
      split <;> rfl
    · rfl

theorem retest_staged {cfg : Settings} {p : Plant} {x : Staged} (h : (retest cfg p).fsq.staged = some x) :
    (p.fsq.queue.head?.map QueueEntry.fan) = some x.fan ∧ p.fsq.staged.isSome = true := by
  unfold retest at h
  split at h <;> rename_i hs
  · rw [hs] at h; exact nomatch h
  · simp [Plant.unstage] at h
  · split at h
    · rename_i hf
      simp only at h
      split at h
      · simp [Plant.unstage] at h
      · simp only [Option.some.injEq] at h
        subst h
        simp_all
    · simp [Plant.unstage] at h

theorem FanMove.queueOk {cfg : Settings} {p q : Plant} (m : FanMove cfg p q) (h : p.QueueOk) : q.QueueOk := by
  have noQueued := fun f r a b => h.setFan_unqueued f r a b
  cases m with
  | note same queue arrival staged state run =>
    refine h.of_same queue arrival (fun x hx => ?_) fun f => by rw [state]
    rw [hx] at staged
    cases hs : p.fsq.staged with
    | none => rw [hs] at staged; exact nomatch staged
    | some y =>
      rw [hs] at staged
      simp only [Option.map_some, Option.some.injEq] at staged
      rw [h.2.2.2.2.2 y hs, staged]
  | join f r inputs was reach state run => exact h.join f r was state
  | leave f r inputs was state run =>
    have := h.leave f r (by rw [state]; decide) (p.leave f).fsq.spacing
    exact this
  | stop f r inputs was state run =>
    refine noQueued f r (fun e => ?_) (by rcases state with e | e <;> rw [e] <;> decide)
    rw [e] at was; exact nomatch was
  | rest f r inputs was state run => exact noQueued f r (by rw [was]; decide) (by rw [state]; decide)
  | prove f r inputs was state run =>
    exact noQueued f r (by rcases was with e | e <;> rw [e] <;> decide) (by rcases state with e | e <;> rw [e] <;> decide)
  | stage e es queue none hold n =>
    refine h.of_same rfl rfl (fun x hx => ?_) fun f => .rfl
    simp only [Option.some.injEq] at hx
    subst hx
    rw [queue]
    rfl
  | launch x r inputs staged idle state run spacing => exact h.leave x.fan r (by rw [state]; decide) spacing
  | reorder =>
    have fan : ∀ f, (retest cfg (reclass p)).fan f = p.fan f := fun f => by simp [Plant.fan, reclass]
    obtain ⟨h1, h2, h3, h4, h5, h6⟩ := h
    let l := p.fsq.queue.map fun e => ({ e with fire := (p.fan e.fan).fire } : QueueEntry)
    have lq : (retest cfg (reclass p)).fsq.queue = sortQueue l := retest_queue cfg _
    have fans : l.map QueueEntry.fan = p.fsq.queue.map QueueEntry.fan := by simp [l]
    have arrivals : l.map QueueEntry.arrival = p.fsq.queue.map QueueEntry.arrival := by simp [l]
    refine ⟨fun e he => ?_, ?_, ?_, fun f hf => ?_, ?_, fun x hx => ?_⟩
    · rw [fan, retest_nextArrival]
      rw [lq] at he
      obtain ⟨d, hd, rfl⟩ := List.mem_map.mp ((sortQueue_perm l).mem_iff.mp he)
      exact h1 d hd
    · rw [lq, ((sortQueue_perm l).map _).nodup_iff, fans]; exact h2
    · rw [lq, ((sortQueue_perm l).map _).nodup_iff, arrivals]; exact h3
    · rw [fan] at hf
      rw [lq, ((sortQueue_perm l).map _).mem_iff, fans]
      exact h4 f hf
    · rw [lq]
      exact sortQueue_pairwise (by rw [arrivals]; exact h3)
    · rw [lq]
      exact (retest_staged hx).1

theorem dropped_state (r : FanRec) : r.dropped.state = .off ∨ (r.state.inReach = false ∧ r.dropped.state = r.state) := by
  unfold FanRec.dropped
  simp only
  split
  · exact .inl rfl
  · exact .inr ⟨by simp_all, rfl⟩

theorem PlantMove.queueOk {p q : Plant} (m : PlantMove p q) (h : p.QueueOk) : q.QueueOk := by
  cases m with
  | fan move => exact move.queueOk h
  | alike s =>
    refine h.of_same s.queue s.arrival (fun x hx => ?_) fun f => by rw [s.state]
    rw [s.staged] at hx
    exact h.2.2.2.2.2 x hx
  | @hand cfg _ q' r =>
    obtain ⟨c, -⟩ := commanded_spec cfg q'
    have : (commanded cfg q').fsq = p.fsq := by rw [c.fsq]; exact r.fsq
    exact h.of_same (by rw [this]) (by rw [this]) (fun x hx => h.2.2.2.2.2 x (by rw [← this]; exact hx)) fun f => by
      simp only [Plant.fan, this]
  | lock f r inputs state run =>
    split
    · exact h.leave f r (by rw [state]; decide) (p.leave f).fsq.spacing
    · rename_i was
      exact h.setFan_unqueued f r was (by rw [state]; decide)
  | free f r inputs was state run =>
    exact h.setFan_unqueued f r (fun e => by rw [e] at was; exact nomatch was) (by rw [state]; decide)
  | drop =>
    refine ⟨(fun e he => nomatch he), .nil, .nil, fun f hf => ?_, .nil, (fun x hx => nomatch hx)⟩
    exfalso
    simp only [Plant.dropped, enterHold, Plant.fan, PerFan.get_build] at hf
    rcases dropped_state (p.fsq.fans.get f) with e | ⟨a, b⟩
    · rw [e] at hf; exact nomatch hf
    · rw [b] at hf; rw [hf] at a; exact nomatch a
  | back => exact h
  | settled => exact h

theorem Plant.OneStart.setFan {p : Plant} (h : p.OneStart) (f : Fan) (r : FanRec) (hr : r.state ≠ .starting) :
    (p.setFan f r).OneStart := fun a b ha hb => by
  rw [Plant.setFan_fan] at ha hb
  split at ha <;> split at hb <;> first | exact absurd ha hr | exact absurd hb hr | exact h a b ha hb

theorem FanMove.oneStart {cfg : Settings} {p q : Plant} (m : FanMove cfg p q) (h : p.OneStart) : q.OneStart := by
  have set := fun f r => h.setFan f r
  cases m with
  | note same queue arrival staged state run => exact fun a b ha hb => h a b (by rwa [← state]) (by rwa [← state])
  | join f r inputs was reach state run =>
    have := set f r (by rw [state]; decide)
    exact fun a b ha hb => this a b (by simpa [Plant.fan] using ha) (by simpa [Plant.fan] using hb)
  | leave f r inputs was state run =>
    have := set f r (by rw [state]; decide)
    exact fun a b ha hb => this a b (by simpa [Plant.fan] using ha) (by simpa [Plant.fan] using hb)
  | stop f r inputs was state run => exact set f r (by rcases state with e | e <;> rw [e] <;> decide)
  | rest f r inputs was state run => exact set f r (by rw [state]; decide)
  | prove f r inputs was state run => exact set f r (by rcases state with e | e <;> rw [e] <;> decide)
  | stage => exact h
  | launch x r inputs staged idle state run spacing =>
    intro a b ha hb
    rw [Plant.setFan_fan] at ha hb
    split at ha <;> split at hb
    · simp_all
    · exact absurd (by simpa [Plant.fan] using hb) (idle b)
    · exact absurd (by simpa [Plant.fan] using ha) (idle a)
    · exact absurd (by simpa [Plant.fan] using ha) (idle a)
  | reorder =>
    exact fun a b ha hb => h a b (by simpa [Plant.fan, reclass] using ha) (by simpa [Plant.fan, reclass] using hb)

theorem PlantMove.oneStart {p q : Plant} (m : PlantMove p q) (h : p.OneStart) : q.OneStart := by
  cases m with
  | fan move => exact move.oneStart h
  | alike s => exact fun a b ha hb => h a b (by rwa [← s.state]) (by rwa [← s.state])
  | @hand cfg _ q' r =>
    obtain ⟨c, -⟩ := commanded_spec cfg q'
    have : (commanded cfg q').fsq = p.fsq := by rw [c.fsq]; exact r.fsq
    exact fun a b ha hb => h a b (by simpa only [Plant.fan, this] using ha) (by simpa only [Plant.fan, this] using hb)
  | lock f r inputs state run =>
    refine Plant.OneStart.setFan ?_ f r (by rw [state]; decide)
    split
    · exact fun a b ha hb => h a b (by simpa [Plant.fan] using ha) (by simpa [Plant.fan] using hb)
    · exact h
  | free f r inputs was state run => exact h.setFan f r (by rw [state]; decide)
  | drop =>
    intro a b ha
    exfalso
    simp only [Plant.dropped, enterHold, Plant.fan, PerFan.get_build] at ha
    rcases dropped_state (p.fsq.fans.get a) with e | ⟨c, d⟩
    · rw [e] at ha; exact nomatch ha
    · rw [d] at ha; rw [ha] at c; exact nomatch c
  | back => exact h
  | settled => exact h


theorem Plant.HoldOk.of_fan {p q : Plant} (h : p.HoldOk) (same : p.SameFireSide q)
    (run : ∀ f, (q.fan f).run = (q.fan f).state.inService)
    (held : q.fsq.hold = true → q.fsq.staged = none ∧ ∀ f, (q.fan f).run = false) : q.HoldOk := by
  refine ⟨run, ?_, ?_, held⟩
  · rw [same.hold, h.2.1, Plant.supplyHold, Plant.supplyHold, same.spm]
  · rw [same.spm]; exact h.2.2.1

theorem Plant.HoldOk.setFan {p : Plant} (h : p.HoldOk) (f : Fan) (r : FanRec) (inputs : r.inputs = (p.fan f).inputs)
    (run : r.run = r.state.inService) (held : p.fsq.hold = true → r.run = false) : (p.setFan f r).HoldOk := by
  refine h.of_fan (.of_setFan inputs) (fun g => ?_) fun x => ⟨(h.2.2.2 x).1, fun g => ?_⟩
  · rw [Plant.setFan_fan]
    split
    · exact run
    · exact h.1 g
  · rw [Plant.setFan_fan]
    split
    · exact held x
    · exact (h.2.2.2 x).2 g

theorem Plant.HoldOk.leave {p : Plant} (h : p.HoldOk) (f : Fan) (r : FanRec) (inputs : r.inputs = (p.fan f).inputs)
    (now : r.run = r.state.inService) (run : r.run = false) : ((p.leave f).setFan f r).HoldOk := by
  have same : p.SameFireSide ((p.leave f).setFan f r) :=
    (Plant.SameFireSide.of_leave p f).trans (.of_setFan (by simpa [Plant.fan] using inputs))
  have fans : ∀ g, ((p.leave f).setFan f r).fan g = (p.setFan f r).fan g := fun g => by simp [Plant.fan]
  have k := h.setFan f r inputs now fun _ => run
  refine h.of_fan same (fun g => by rw [fans]; exact k.1 g) fun x => ⟨?_, fun g => by rw [fans]; exact (k.2.2.2 (show p.fsq.hold = true by rw [← same.hold]; exact x)).2 g⟩
  cases hs : (p.leave f).fsq.staged with
  | none => simpa using hs
  | some y =>
    have := (h.2.2.2 (by rw [← same.hold]; exact x)).1
    rw [(Plant.leave_staged hs).1] at this; exact nomatch this

theorem FanMove.holdOk {cfg : Settings} {p q : Plant} (m : FanMove cfg p q) (h : p.HoldOk) : q.HoldOk := by
  have same := m.same
  have serving : ∀ f, (p.fan f).state.inService = true → p.fsq.hold = false := fun f hf => by
    cases hh : p.fsq.hold with
    | false => rfl
    | true =>
      have := (h.2.2.2 hh).2 f
      rw [h.1 f, hf] at this
      exact nomatch this
  cases m with
  | note _ queue arrival staged state run =>
    refine h.of_fan same (fun f => by rw [run, state]; exact h.1 f) fun x => ⟨?_, fun f => by rw [run]; exact (h.2.2.2 (by rw [← same.hold]; exact x)).2 f⟩
    rw [(h.2.2.2 (by rw [← same.hold]; exact x)).1] at staged
    simpa using staged
  | join f r inputs was reach state run =>
    have r0 : r.run = false := by
      rcases run with e | ⟨e, e'⟩
      · exact e
      · rw [e', h.1 f, e]
    have k := h.setFan f r inputs (by rw [r0, state]; rfl) fun _ => r0
    have fans : ∀ g, ((p.setFan f r).join f).fan g = (p.setFan f r).fan g := fun g => by simp [Plant.fan]
    refine k.of_fan (.of_join _ f) (fun g => by rw [fans]; exact k.1 g) fun x => ⟨?_, fun g => ?_⟩
    · have := (k.2.2.2 (by rw [← (Plant.SameFireSide.of_join (p.setFan f r) f).hold]; exact x)).1
      cases hs : ((p.setFan f r).join f).fsq.staged with
      | none => rfl
      | some y => rw [(Plant.join_staged hs).1] at this; exact nomatch this
    · rw [fans]
      exact (k.2.2.2 (by rw [← (Plant.SameFireSide.of_join (p.setFan f r) f).hold]; exact x)).2 g
  | leave f r inputs was state run =>
    exact h.leave f r inputs (by rw [run, state]; rfl) run
  | stop f r inputs was state run =>
    exact h.setFan f r inputs (by rcases state with e | e <;> rw [run, e] <;> rfl) fun _ => run
  | rest f r inputs was state run => exact h.setFan f r inputs (by rw [run, state]; rfl) fun _ => run
  | prove f r inputs was state run =>
    have sv : (p.fan f).state.inService = true := by rcases was with e | e <;> rw [e] <;> rfl
    refine h.setFan f r inputs ?_ fun x => ?_
    · rw [run, h.1 f, sv]
      rcases state with e | e <;> rw [e] <;> rfl
    · rw [serving f sv] at x; exact nomatch x
  | stage e es queue none hold n =>
    exact h.of_fan same h.1 fun x => by
      rw [show p.fsq.hold = true from x] at hold; exact nomatch hold
  | launch x r inputs staged idle state run spacing =>
    have nohold : p.fsq.hold = false := by
      cases hh : p.fsq.hold with
      | false => rfl
      | true => rw [(h.2.2.2 hh).1] at staged; exact nomatch staged
    refine h.of_fan same (fun g => ?_) fun y => ?_
    · rw [Plant.setFan_fan]
      split
      · rw [run, state]; rfl
      · simpa [Plant.fan] using h.1 g
    · rw [same.hold, nohold] at y; exact nomatch y
  | reorder =>
    have fan : ∀ f, (retest cfg (reclass p)).fan f = p.fan f := fun f => by simp [Plant.fan, reclass]
    refine h.of_fan same (fun f => by rw [fan]; exact h.1 f) fun x => ⟨?_, fun f => by rw [fan]; exact (h.2.2.2 (by rw [← same.hold]; exact x)).2 f⟩
    have n := (h.2.2.2 (by rw [← same.hold]; exact x)).1
    cases hs : (retest cfg (reclass p)).fsq.staged with
    | none => rfl
    | some y =>
      have := (retest_staged hs).2
      rw [show (reclass p).fsq.staged = p.fsq.staged from rfl, n] at this
      exact nomatch this

theorem PlantMove.holdOk {p q : Plant} (m : PlantMove p q) (h : p.HoldOk) : q.HoldOk := by
  cases m with
  | fan move => exact move.holdOk h
  | alike s =>
    refine ⟨fun f => by rw [s.run, s.state]; exact h.1 f, ?_, fun x => ?_, fun x => ?_⟩
    · rw [s.hold, h.2.1, Plant.supplyHold, Plant.supplyHold, s.settle]
      have := s.transfer
      cases ha : p.spm.state <;> cases hb : q.spm.state <;> simp_all <;> rfl
    · rw [s.settle] at x
      exact fun y => h.2.2.1 x (s.transfer.mp y)
    · rw [s.hold] at x
      exact ⟨by rw [s.staged]; exact (h.2.2.2 x).1, fun f => by rw [s.run]; exact (h.2.2.2 x).2 f⟩
  | @hand cfg _ q' r =>
    obtain ⟨c, -⟩ := commanded_spec cfg q'
    have e : (commanded cfg q').fsq = p.fsq := by rw [c.fsq]; exact r.fsq
    have e' : (commanded cfg q').spm = p.spm := by rw [c.spm]; exact r.spm
    simpa only [Plant.HoldOk, Plant.fan, Plant.supplyHold, e, e'] using h
  | lock f r inputs state run =>
    split
    · exact h.leave f r inputs (by rw [run, state]; rfl) run
    · exact h.setFan f r inputs (by rw [run, state]; rfl) fun _ => run
  | free f r inputs was state run =>
    have r0 : r.run = false := by
      rw [run, h.1 f]
      cases hs : (p.fan f).state <;> simp_all [FanState.inReach, FanState.inService]
    exact h.setFan f r inputs (by rw [r0, state]; rfl) fun _ => r0
  | drop =>
    refine ⟨fun f => ?_, rfl, (fun x => nomatch x), fun _ => ⟨rfl, fun f => ?_⟩⟩ <;>
    · simp only [Plant.dropped, enterHold, Plant.fan, PerFan.get_build]
      have := h.1 f
      simp only [Plant.fan] at this
      generalize p.fsq.fans.get f = r at this
      unfold FanRec.dropped
      cases hs : r.state <;> simp_all [FanState.inReach, FanRec.release, FanState.inService]
  | back was next now n =>
    have hh : p.fsq.hold = true := by rw [h.2.1, Plant.supplyHold, was]; rfl
    exact ⟨h.1, by simp [hh, Plant.supplyHold], fun _ => now, h.2.2.2⟩
  | settled was =>
    refine ⟨h.1, ?_, (fun x => nomatch x), (fun x => nomatch x)⟩
    have := h.2.2.1 was
    simp [Plant.supplyHold, this]

end Sys2Proof.Machine
end

