-- ==== Sys2Proof/Laws/Outputs.lean ====
section
/-! SUPPORT. What the outputs are once a handling has brought them up to date, and what a status computed afresh is, in
the words of R26, R85, R86, R97 to R99 and R183. -/

namespace Sys2Proof.Machine

@[simp] theorem EventKind.mem_all (k : EventKind) : k ∈ EventKind.all := by cases k <;> simp [EventKind.all]

/-- The attention line is asserted while any event is pending (R183). -/
theorem Events.any_iff (e : Events) : e.any = true ↔ ∃ k, e.has k = true := by simp [Events.any]

/-- The contact is open while the summary holds a condition (R86). -/
theorem Trouble.any_iff (t : Trouble) :
    t.any = true ↔ t ≠ ⟨false, false, false, false, false, false, false, false⟩ := by
  obtain ⟨a, b, c, d, e, f, g, h⟩ := t
  simp [Trouble.any, Trouble.mk.injEq]
  grind

theorem FanState.atRest_iff (x : FanState) : x.atRest = true ↔ x ∈ [FanState.off, .tripped, .locked] := by
  cases x <;> decide

theorem ChannelRec.faulted_iff (r : ChannelRec) :
    r.faulted = true ↔ r.condition = .fault ∨ (r.condition = .inhibited ∧ r.faultHeld = true) := by
  unfold ChannelRec.faulted
  cases r.condition <;> simp

@[simp] theorem Block.mem_all (b : Block) : b ∈ Block.all := by cases b <;> simp [Block.all]

theorem PerBlock.any_iff (t : PerBlock) : t.any = true ↔ ∃ b, t.get b = true := by simp [PerBlock.any]

theorem hasRunning_iff (cfg : Settings) (p : Plant) (g : Group) :
    hasRunning cfg p g = true ↔ ∃ f, cfg.fans.group.get f = some g ∧ (p.fan f).state = .running := by
  simp [hasRunning, Settings.groupFans]

theorem hasAvailable_iff (cfg : Settings) (p : Plant) (g : Group) :
    hasAvailable cfg p g = true ↔
      ∃ f, cfg.fans.group.get f = some g ∧ ¬((p.fan f).state = .tripped ∨ (p.fan f).state = .locked) := by
  simp only [hasAvailable, Settings.groupFans, List.any_filter, List.any_eq_true, Fan.mem_all, true_and,
    Bool.and_eq_true, beq_iff_eq]
  refine exists_congr fun f => and_congr_right fun _ => ?_
  cases (p.fan f).state <;> simp [FanState.inReach]

/-- The conditions of the summary are those of R85. -/
theorem State.troubleNow_says (s : State) : s.TroubleSays s.troubleNow := by
  refine ⟨?_, ?_, ?_, ?_, ?_, Iff.rfl, PerBlock.any_iff _, ?_⟩
  · simp only [State.troubleNow]
    cases s.fif.link <;> simp
  all_goals simp [State.troubleNow, ChannelRec.faulted_iff]

/-- A status computed afresh is the one R26 gives. -/
theorem statusOf_says (cfg : Settings) (p : Plant) (z : Zone) : StatusSays cfg p z (statusOf cfg p z) := by
  have av := hasAvailable_iff cfg p (cfg.zones.group.get z)
  have ru := hasRunning_iff cfg p (cfg.zones.group.get z)
  unfold StatusSays statusOf
  generalize hasAvailable cfg p (cfg.zones.group.get z) = a at *
  generalize hasRunning cfg p (cfg.zones.group.get z) = r at *
  refine ⟨fun h => ?_, fun c cs hl hx => ?_⟩
  · cases hl : (p.zones.get z).claims with
    | nil => rfl
    | cons c cs =>
      have : hasFireSide (c :: cs) = false := by
        simp only [hasFireSide, List.any_eq_false, decide_eq_true_eq, Nat.not_le, ← hl]
        exact h
      simp [smokeStatus, this]
  · have : hasFireSide (c :: cs) = true := by
      simpa [hasFireSide, ← hl] using hx
    simp only [hl, smokeStatus, this, if_true]
    refine ⟨fun d hd => ?_, fun hd => ?_⟩
    · simp only [hd]
      refine ⟨fun h => ?_, fun hf ⟨f, hm, hn⟩ => ?_⟩
      · rcases h with h | h
        · simp [h]
        · have : a = false := by
            cases a with
            | false => rfl
            | true =>
              obtain ⟨f, hm, hn⟩ := av.mp rfl
              exact absurd (h f hm) hn
          simp [this]
      · have ha : a = true := av.mpr ⟨f, hm, hn⟩
        simp only [hf, ha, false_or, reduceCtorEq, if_false]
        refine ⟨fun ⟨h1, h2⟩ => ?_, fun h => ?_⟩
        · simp [h1, ru.mpr h2]
        · rw [if_neg]
          rintro ⟨h1, h2⟩
          obtain ⟨f, hm, hr⟩ := ru.mp h2
          rcases h with h | h
          · exact h h1
          · exact h f hm hr
    · simp only [hd]
      refine ⟨fun h => ?_, fun h => ?_, fun h1 h2 => ?_⟩
      · simp [h]
      · simp [h]
      · simp [h1, h2]

/-- Statuses computed afresh are those of R26. -/
theorem refreshStatus_says (cfg : Settings) (p : Plant) (z : Zone) :
    StatusSays cfg (refreshStatus cfg p) z ((refreshStatus cfg p).zones.get z).status := by
  have h := statusOf_says cfg p z
  have e : ((refreshStatus cfg p).zones.get z).status = statusOf cfg p z := by
    simp [refreshStatus]
  rw [e]
  simpa [StatusSays, refreshStatus, Plant.fan] using h

/-- After the outputs are brought up to date in normal operation they are those of R85, R86, R97 to R99 and R183. -/
theorem State.refreshPins_says (s : State) (mode : s.mode = .normal) : s.refreshPins.OutputsOk := by
  refine ⟨fun _ => ⟨s.troubleNow_says, Trouble.any_iff _, fun z => ?_, fun g => ?_, Events.any_iff _⟩,
    fun h => absurd mode h, fun h => absurd (mode.symm.trans h) (by decide)⟩
  · refine ⟨fun h => ?_, fun h => ?_⟩
    · simp [State.refreshPins, show s.pif.lampTest = true from h]
    · simp [State.refreshPins, show s.pif.lampTest = false from h, State.zoneLampsNow]
  · refine ⟨fun h => ?_, fun h => ?_⟩
    · simp [State.refreshPins, show s.pif.lampTest = true from h]
    · simp only [State.refreshPins, show s.pif.lampTest = false from h, PerGroup.get_build, Bool.false_eq_true,
        if_false]
      exact ⟨hasRunning_iff _ _ _, by simp [State.groupLampsNow, Settings.groupFans]⟩

end Sys2Proof.Machine
end

