-- ==== Sys2Proof/Laws/Reached.lean ====
section
/-! SUPPORT. What every operation on the state, and every command, does to the plant: a chain of moves from the plant
before it, or from one of the plants with which the part starts or stops. -/

namespace Sys2Proof.Machine

/-! ## The operations on the state -/

/-- A chain from a plant that is the given one by definition. -/
theorem startAt {p p' q : Plant} (h : PlantChain p' q) (e : p' = p := by rfl) : PlantChain p q := e ▸ h

/-- A fold of operations on the state, each a chain on the plant, is a chain on the plant. -/
theorem foldl_stateMoves {α : Type} {f : State → α → State} (h : ∀ s a, PlantChain s.plant (f s a).plant) (l : List α)
    (s : State) : PlantChain s.plant (l.foldl f s).plant := by
  induction l generalizing s with
  | nil => exact .refl
  | cons a l ih => exact (h s a).trans (ih _)

theorem State.place_moves (s : State) (z : Zone) (c : Claim) : PlantChain s.plant (s.place z c).plant :=
  Machine.place_moves s.cfg z c s.plant

theorem State.remove_moves (s : State) (z : Zone) (src : Source) : PlantChain s.plant (s.remove z src).plant :=
  Machine.remove_moves s.cfg z src s.plant

theorem State.placeContact_moves (s : State) : PlantChain s.plant s.placeContact.plant :=
  foldl_stateMoves (fun s z => s.place_moves z _) _ s

theorem State.removeContact_moves (s : State) : PlantChain s.plant s.removeContact.plant :=
  foldl_stateMoves (fun s z => s.remove_moves z _) _ s

theorem State.placePanel_moves (s : State) (z : Zone) : PlantChain s.plant (s.placePanel z).plant := by
  unfold State.placePanel
  split
  · exact startAt (State.place_moves _ z _)
  · exact .refl

theorem State.removePanel_moves (s : State) (z : Zone) : PlantChain s.plant (s.removePanel z).plant := by
  unfold State.removePanel
  split
  · exact startAt (State.remove_moves _ z _)
  · exact .refl

theorem State.turnPanelKey_moves (s : State) (on : Bool) : PlantChain s.plant (s.turnPanelKey on).plant := by
  unfold State.turnPanelKey
  split
  · exact .refl
  · simp only
    split
    · exact startAt (foldl_stateMoves State.placePanel_moves _ _)
    · exact startAt (foldl_stateMoves State.removePanel_moves _ _)

theorem State.takePosition_moves (s : State) (z : Zone) (x : SwitchPosition) :
    PlantChain s.plant (s.takePosition z x).plant := by
  unfold State.takePosition
  simp only
  split
  · split
    · exact startAt (State.removePanel_moves _ z)
    · exact startAt (State.placePanel_moves _ z)
  · exact .refl

theorem State.alignSchedule_moves (s : State) (z : Zone) : PlantChain s.plant (s.alignSchedule z).plant := by
  unfold State.alignSchedule
  simp only
  split
  · exact .refl
  · split
    · exact startAt (State.place_moves _ z _)
    · exact startAt (State.remove_moves _ z _)

theorem State.evaluateWindows_moves (s : State) : PlantChain s.plant s.evaluateWindows.plant :=
  foldl_stateMoves State.alignSchedule_moves _ s

theorem State.minuteBoundary_moves (s : State) : PlantChain s.plant s.minuteBoundary.plant := by
  unfold State.minuteBoundary State.evaluateInService
  split
  · split
    · exact startAt (State.evaluateWindows_moves _)
    · exact .refl
  · exact .refl

theorem State.clockSecond_moves (s : State) : PlantChain s.plant s.clockSecond.plant := by
  unfold State.clockSecond
  split
  · split
    · exact s.minuteBoundary_moves
    · exact .refl
  · exact .refl

theorem State.sendGas_moves (s : State) (z : Zone) (w : Option GasClaim) : PlantChain s.plant (s.sendGas z w).plant := by
  unfold State.sendGas
  simp only
  split
  · exact .refl
  · split
    · exact startAt (State.place_moves _ z _)
    · exact startAt (State.remove_moves _ z _)

theorem State.recomputeZone_moves (s : State) (z : Zone) (b : Bool) : PlantChain s.plant (s.recomputeZone z b).plant := by
  unfold State.recomputeZone
  split
  · exact startAt (State.sendGas_moves _ z _)
  · split
    · exact startAt (State.sendGas_moves _ z _)
    · split
      · exact .refl
      · exact startAt (State.sendGas_moves _ z _)
      · split
        · exact startAt (State.sendGas_moves _ z _)
        · exact startAt (State.sendGas_moves _ z _)

theorem State.recomputeChannelZone_moves (s : State) (c : Channel) :
    PlantChain s.plant (s.recomputeChannelZone c).plant := by
  unfold State.recomputeChannelZone
  split
  · exact s.recomputeZone_moves _ _
  · exact .refl

theorem State.takeEntry_moves (s : State) (c : Channel) : PlantChain s.plant (s.takeEntry c).plant :=
  (raiseIf_moves s.plant _ _).trans (startAt (State.recomputeChannelZone_moves _ c))

theorem State.stopEvaluation_moves (s : State) (c : Channel) : PlantChain s.plant (s.stopEvaluation c).plant :=
  State.recomputeChannelZone_moves (s.setEval c .blank) c

theorem State.raise_moves (s : State) (k : EventKind) : PlantChain s.plant (s.raise k).plant := Machine.raise_moves _ k

theorem State.sample_moves (s : State) (c : Channel) (q : Nat) : PlantChain s.plant (s.sample c q).plant := by
  unfold State.sample
  simp only
  have start : (s.setChannel c ((s.channel c).sample (s.cfg.channels.channel.get c).fullScale q).1).plant = s.plant := rfl
  generalize s.setChannel c ((s.channel c).sample (s.cfg.channels.channel.get c).fullScale q).1 = t at start ⊢
  rw [← start]
  split
  · exact .refl
  · split
    · exact t.takeEntry_moves c
    · exact .refl
  · split
    · exact (t.stopEvaluation_moves c).trans (State.raise_moves _ _)
    · exact t.raise_moves _
  · split
    · exact (t.recomputeChannelZone_moves c).trans (State.takeEntry_moves _ c)
    · exact .refl

theorem State.convert_moves (s : State) (c : Channel) (q : Nat) : PlantChain s.plant (s.convert c q).plant := by
  unfold State.convert
  split
  · exact startAt (State.sample_moves _ c q)
  · exact .refl

theorem State.endInhibit_moves (s : State) (c : Channel) : PlantChain s.plant (s.endInhibit c).plant := by
  unfold State.endInhibit
  simp only
  split
  · exact startAt (State.stopEvaluation_moves _ c)
  · split
    · exact startAt (State.takeEntry_moves _ c)
    · exact startAt (State.recomputeChannelZone_moves _ c)

theorem State.fevChannel_moves (old : ChannelsBlock) (s : State) (c : Channel) :
    PlantChain s.plant (State.fevChannel old s c).plant := by
  unfold State.fevChannel
  simp only
  split
  · exact .refl
  · split
    · exact raiseIf_moves _ _ _
    · exact .refl

theorem State.fevZone_moves (old : ChannelsBlock) (s : State) (z : Zone) :
    PlantChain s.plant (State.fevZone old s z).plant := by
  unfold State.fevZone
  split
  · exact s.recomputeZone_moves _ _
  · split
    · exact startAt (State.recomputeZone_moves _ _ _)
    · exact startAt (State.recomputeZone_moves _ _ _)

theorem State.applyChannels_moves (s : State) (old : ChannelsBlock) : PlantChain s.plant (s.applyChannels old).plant :=
  (foldl_stateMoves (State.fevChannel_moves old) _ (s.scnChannels old)).trans (foldl_stateMoves (State.fevZone_moves old) _ _)

theorem State.releaseBms_moves (s : State) (z : Zone) : PlantChain s.plant (s.releaseBms z).plant := by
  unfold State.releaseBms
  split
  · exact startAt (State.remove_moves _ z _)
  · exact .refl

theorem State.setCap_moves (s : State) (cap : Option Nat) : PlantChain s.plant (s.setCap cap).plant :=
  budgetChange_moves s.cfg cap s.plant

@[simp] theorem State.abandonOpen_plant (s : State) : s.abandonOpen.plant = s.plant := by
  unfold State.abandonOpen
  split <;> rfl

theorem State.loseBLink_moves (s : State) : PlantChain s.plant s.loseBLink.plant := by
  unfold State.loseBLink
  simp only
  have first := foldl_stateMoves State.releaseBms_moves Zone.all { s with bli := { s.bli with link := .lost, timer := none } }
  split
  · simp only [State.raise_plant, State.abandonOpen_plant]
    exact (first.trans (startAt (State.setCap_moves _ none))).trans (Machine.raise_moves _ _)
  · simp only [State.raise_plant, State.abandonOpen_plant]
    exact first.trans (Machine.raise_moves _ _)

theorem State.loseFLink_moves (s : State) : PlantChain s.plant s.loseFLink.plant := by
  unfold State.loseFLink
  simp only
  split
  · exact (Machine.raise_moves s.plant .linkTrouble).trans (startAt (State.placeContact_moves _))
  · exact Machine.raise_moves s.plant .linkTrouble

theorem State.changeContact_moves (s : State) (b : Bool) : PlantChain s.plant (s.changeContact b).plant := by
  unfold State.changeContact
  simp only
  split
  · exact .refl
  · split
    · split
      · exact Machine.raise_moves s.plant .fireChange
      · exact (Machine.raise_moves s.plant .fireChange).trans (startAt (State.placeContact_moves _))
    · exact (Machine.raise_moves s.plant .fireChange).trans (startAt (State.removeContact_moves _))

theorem State.raiseFLink_moves (s : State) : PlantChain s.plant s.raiseFLink.plant := by
  unfold State.raiseFLink
  split
  · exact .refl
  · exact State.removeContact_moves { s with fif := { s.fif with link := .up } }

theorem State.acceptFrame_moves (s : State) (f : ZoneStateFrame) : PlantChain s.plant (s.acceptFrame f).plant :=
  (fireUpdate_moves s.cfg f.map f.reset s.plant).trans (startAt (State.raiseFLink_moves _))

theorem State.takeSlot_moves (s : State) : PlantChain s.plant s.takeSlot.plant := by
  unfold State.takeSlot
  split
  · exact .refl
  · simp only
    split
    · exact .refl
    · exact startAt (State.acceptFrame_moves _ _)

/-! ## The application of a block and the end of a handling -/

theorem Damper.retime_command (old new : Nat) (d : Damper) : (d.retime old new).commandOpen = d.commandOpen := by
  unfold Damper.retime Damper.fail
  split
  · rfl
  · split
    · rfl
    · split <;> rfl

theorem retimeDampers_moves (cfg : Settings) (old new : Nat) (p : Plant) : PlantChain p (retimeDampers cfg old new p) :=
  foldl_moves (fun p z => damperEvent_moves cfg z _ (Damper.retime_command old new) p) _ p

theorem retimeSettle_moves (cfg : Settings) (cap : Option Nat) (old new : Nat) (p : Plant) :
    PlantChain p (retimeSettle cfg cap old new p) := by
  unfold retimeSettle
  split
  · exact .refl
  · rename_i left h
    split
    · exact Plant.Alike.chain ⟨fun _ => rfl, fun _ => rfl, rfl, fun _ => rfl, rfl, rfl, rfl, rfl, fun _ => rfl,
        fun _ => rfl, .rfl, by rw [h]; rfl⟩
    · exact endSettle_moves cfg cap p (by rw [h]; rfl)

theorem State.retimeFLink_moves (s : State) (old new : Nat) : PlantChain s.plant (s.retimeFLink old new).plant := by
  unfold State.retimeFLink
  split
  · exact .refl
  · split
    · exact .refl
    · exact s.loseFLink_moves

theorem State.retimeBLink_moves (s : State) (old new : Nat) : PlantChain s.plant (s.retimeBLink old new).plant := by
  unfold State.retimeBLink
  split
  · exact .refl
  · split
    · exact .refl
    · exact s.loseBLink_moves

theorem State.applyToOwners_moves (s : State) (old : Settings) (b : Block) :
    PlantChain s.plant (s.applyToOwners old b).plant := by
  cases b with
  | zones =>
    have first : PlantChain s.plant (s.onPlant (refreshStatus s.cfg)).plant := (refreshStatus_chain s.cfg s.plant).chain
    simp only [State.applyToOwners, State.applyZones, State.onPlant_plant s (refreshStatus s.cfg)] at first ⊢
    split <;> rw [State.onPlant_plant]
    · exact (first.trans (State.placeContact_moves (s.onPlant (refreshStatus s.cfg)))).trans (runPass_chain s.cfg _).chain
    · exact first.trans (runPass_chain s.cfg _).chain
  | fans =>
    simp only [State.applyToOwners, State.applyFans]
    rw [State.onPlant_plant]
    exact FanChain.chain ((foldl_chain (fun q g => setDuty_chain s.cfg q g _) Group.all s.plant).trans
      ((runPass_chain s.cfg _).trans (refreshStatus_chain s.cfg _)))
  | channels => exact s.applyChannels_moves _
  | timers =>
    simp only [State.applyToOwners, State.applyTimers]
    refine Relation.ReflTransGen.trans ?_ ((State.retimeFLink_moves _ _ _).trans (State.retimeBLink_moves _ _ _))
    rw [State.onPlant_plant]
    exact ((retimeDampers_moves s.cfg _ _ s.plant).trans (retimeFans_chain s.cfg _ _ _).chain).trans
      (retimeSettle_moves s.cfg s.bli.cap _ _ _)
  | budget => exact budgetChange_moves _ _ _
  | windows => exact s.evaluateWindows_moves

theorem State.applyBlock_moves (s : State) (v : BlockValue) : PlantChain s.plant (s.applyBlock v).plant :=
  (State.applyToOwners_moves (s.putInForce v) s.sst.inForce v.block).trans (Machine.raise_moves _ _)

theorem State.applyIfReady_moves (s : State) : PlantChain s.plant s.applyIfReady.plant := by
  unfold State.applyIfReady
  split
  · split
    · exact s.applyBlock_moves _
    · exact .refl
  · exact .refl

theorem State.settle_moves (s : State) : PlantChain s.plant s.settle.plant := by
  unfold State.settle State.finish
  split
  · exact s.applyIfReady_moves
  · exact .refl

/-! ## The commands -/

theorem State.inService_moves (s : State) {f : State → State} (h : PlantChain s.plant (f s).plant) :
    PlantChain s.plant (s.inService f).plant := by
  unfold State.inService
  split
  · exact h.trans (startAt (State.settle_moves _))
  · exact .refl

/-- What carrying out a request other than RESTART does to the plant. -/
theorem requestHandler_moves (r : Request) (h : r ≠ .restart) (s : State) :
    PlantChain s.plant (requestHandler r s).1.plant := by
  cases r with
  | restart => exact absurd rfl h
  | readSummary => exact .refl
  | readZone z => simp only [requestHandler, askZone, withZone]; split <;> exact .refl
  | readGroup g => simp only [requestHandler, askGroup, withGroup]; split <;> exact .refl
  | readFan f => simp only [requestHandler, askFan, withFan]; split <;> exact .refl
  | readChannel c => simp only [requestHandler, askChannel, withChannel]; split <;> exact .refl
  | fetchEvents =>
    exact Plant.Alike.chain ⟨fun _ => rfl, fun _ => rfl, rfl, fun _ => rfl, rfl, rfl, rfl, rfl, fun _ => rfl, fun _ => rfl, .rfl, rfl⟩
  | claimExhaust z d =>
    simp only [requestHandler, askExhaust, withZone]
    split
    · split
      · exact s.releaseBms_moves _
      · exact Machine.place_moves s.cfg _ _ s.plant
    · exact .refl
  | claimShut z =>
    simp only [requestHandler, askShut, withZone]
    split
    · exact Machine.place_moves s.cfg _ _ s.plant
    · exact .refl
  | release z =>
    simp only [requestHandler, askRelease, withZone]
    split
    · exact s.releaseBms_moves _
    · exact .refl
  | setBudget cap => exact s.setCap_moves _
  | clearBudget => exact s.setCap_moves _
  | setClock a b c =>
    simp only [requestHandler, askClock]
    split
    · exact startAt (State.evaluateWindows_moves _)
    · exact .refl
  | adjustClock =>
    simp only [requestHandler, askAdjust]
    split
    · exact startAt (State.evaluateWindows_moves _)
    · exact .refl
  | inhibit c t =>
    simp only [requestHandler, askInhibit, withChannel]
    split
    · split
      · exact .refl
      · split
        · exact .refl
        · split
          · exact .refl
          · exact startAt (State.stopEvaluation_moves _ _)
    · exact .refl
  | restore c =>
    simp only [requestHandler, askRestore, withChannel]
    split
    · split
      · exact startAt (State.endInhibit_moves _ _)
      · exact .refl
    · exact .refl
  | lockFan f =>
    simp only [requestHandler, askLock, withFan]
    split
    · split
      · exact .refl
      · split
        · exact .refl
        · simp only [State.onPlant_plant]
          exact lockPlantFan_moves s.cfg _ s.plant
    · exact .refl
  | unlockFan f =>
    simp only [requestHandler, askUnlock, withFan]
    split
    · split
      · rename_i h
        simp only [State.onPlant_plant]
        exact returnPlantFan_moves s.cfg _ s.plant (by rw [h]; rfl)
      · exact .refl
    · exact .refl
  | resetFan f =>
    simp only [requestHandler, askReset, withFan]
    split
    · split
      · rename_i f _ h
        simp only [State.onPlant_plant]
        exact (setFan_moves s.plant f { s.plant.fan f with attempts := 0 } rfl rfl).trans
          (returnPlantFan_moves s.cfg _ _ (by simp [h, FanState.inReach]))
      · exact .refl
    · exact .refl
  | openEdit b =>
    simp only [requestHandler, askOpen, State.openEdit]
    repeat' split
    all_goals exact .refl
  | writeItem a b =>
    simp only [requestHandler, askWrite, State.writeItem]
    repeat' split
    all_goals exact .refl
  | commitEdit =>
    simp only [requestHandler, askCommit, State.commitEdit]
    repeat' split
    all_goals exact .refl
  | abandonEdit =>
    simp only [requestHandler, askAbandon, State.abandonEdit]
    repeat' split
    all_goals exact .refl
  | readSetting a b => exact .refl
  | clearLink => exact .refl


/-- From `p` to the plant of `t`: a chain, from the plant before or from one with which the part starts. -/
inductive State.Reached (s t : State) : Prop
  | went (h : PlantChain s.plant t.plant)
  | loading (mode : t.mode = .loading) (raised : Bool) (h : t.plant = Plant.blank.raiseIf raised .fireChange)
  | began (cfg : Settings) (fireChange defaulted : Bool) (x : Lines)
      (h : PlantChain (.start cfg fireChange defaulted x) t.plant)
  | stopped (mode : t.mode = .unpowered) (h : ∀ z, t.plant.zones.get z = .blank) (order : t.plant.fireOrder = s.plant.fireOrder)
      (queue : t.plant.fsq.queue = []) (staged : t.plant.fsq.staged = none) (off : ∀ f, (t.plant.fan f).state = .off)

theorem State.inService_reached (s : State) {f : State → State} (h : PlantChain s.plant (f s).plant) :
    s.Reached (s.inService f) := .went (s.inService_moves h)

theorem State.answer_reached (s : State) (k : Byte) {h : Handler} (m : PlantChain s.plant (h s.hearB).1.plant) :
    s.Reached (s.answer k h) := by
  unfold State.answer
  split
  · exact .went .refl
  · split
    · exact .went .refl
    · exact .went .refl
    · exact .went (m.trans (startAt (State.settle_moves (State.sendB _ _))))

theorem State.answer_request (s : State) {r : Request} (h : r ≠ .restart) (k : Byte) :
    s.Reached (s.answer k (requestHandler r)) :=
  s.answer_reached k (startAt (requestHandler_moves r h s.hearB))

theorem State.answer_restart (s : State) (k : Byte) (straps : Nat) : s.Reached (s.answer k (askRestart straps)) := by
  unfold State.answer
  split
  · exact .went .refl
  · split
    · exact .went .refl
    · exact .went .refl
    · simp only [askRestart]
      split
      · exact .went (startAt (State.settle_moves (State.sendB _ _)))
      · split
        · exact .went (startAt (State.settle_moves (State.sendB _ _)))
        · refine .loading (raised := false) ?_ ?_ <;> simp [State.settle, State.restart, State.load, Plant.raiseIf]

theorem State.answer_restartFrame (s : State) (k : Byte) : s.Reached (s.answer k askRestartFrame) := by
  unfold State.answer
  split
  · exact .went .refl
  · split
    · exact .went .refl
    · exact .went .refl
    · simp only [askRestartFrame, askRestart]
      split
      · exact .went (startAt (State.settle_moves (State.sendB _ _)))
      · split
        · exact .went (startAt (State.settle_moves (State.sendB _ _)))
        · refine .loading (raised := false) ?_ ?_ <;> simp [State.settle, State.restart, State.load, Plant.raiseIf]

theorem State.take_reached (s : State) (k : Byte) (p : List Byte) :
    s.Reached (s.take k p) := by
  unfold State.take
  split
  · rename_i r hr
    by_cases e : r = .restart
    · subst e
      exact s.answer_restartFrame k
    · exact s.answer_request e k
  · exact s.answer_reached k .refl

theorem State.Reached.of_plant {s u t : State} (e : u.plant = s.plant) (h : u.Reached t) : s.Reached t := by
  cases h with
  | went h => exact .went (e ▸ h)
  | loading m r h => exact .loading m r h
  | began cfg f d x h => exact .began cfg f d x h
  | stopped m a b c d f => exact .stopped m a (b.trans (by rw [e])) c d f

theorem State.linkError_moves (s : State) : PlantChain s.plant s.linkError.plant := by
  unfold State.linkError
  split
  · exact s.raise_moves _
  · exact .refl

@[simp] theorem State.setAssembling_plant (s : State) (l : Link) (b : Bool) : (s.setAssembling l b).plant = s.plant := by
  cases l <;> rfl

theorem State.breakFrame_moves (s : State) (l : Link) : PlantChain s.plant (s.breakFrame l).plant := by
  unfold State.breakFrame
  split
  · cases l
    · exact startAt (State.linkError_moves _)
    · exact .refl
  · exact .refl

theorem State.startFrame_moves (s : State) (l : Link) : PlantChain s.plant (s.startFrame l).plant := by
  unfold State.startFrame
  split
  · exact .refl
  · rw [State.setAssembling_plant]

theorem State.enqueueFrame_moves (s : State) (f : Frame) : PlantChain s.plant (s.enqueueFrame f).plant := by
  unfold State.enqueueFrame
  simp only
  split
  · split <;> exact .refl
  · split
    · exact .refl
    · exact startAt (State.linkError_moves _)

theorem State.completeB_moves (s : State) (bs : List Byte) : PlantChain s.plant (s.completeB bs).plant := by
  unfold State.completeB
  simp only
  split
  · exact startAt (State.linkError_moves _)
  · split
    · exact startAt (State.enqueueFrame_moves _ _)
    · exact .refl

theorem State.completeF_moves (s : State) (bs : List Byte) : PlantChain s.plant (s.completeF bs).plant := by
  unfold State.completeF
  simp only
  split
  · split <;> exact .refl
  · exact .refl

theorem Damper.read_command (t : Nat) (d : Damper) : (d.read t).commandOpen = d.commandOpen := by
  unfold Damper.read Damper.testEnd Damper.home Damper.fail Damper.depart
  repeat' split
  all_goals rfl

theorem Damper.expire_command (d : Damper) : d.expire.commandOpen = d.commandOpen := by
  unfold Damper.expire Damper.fail
  split <;> rfl

/-- What every command does to the plant. -/
theorem exec_reached (c : Instr) (s t : State) (h : exec c s = .next t) : s.Reached t := by
  have out : ∀ {u : State}, (Host.Outcome.next u : Answered) = .next t → u = t := fun e => by cases e; rfl
  cases c <;> obtain rfl := out h
  case powerOnReset straps => exact .loading (raised := !s.plant.fireOrder.isEmpty) rfl rfl
  case loadingComplete x =>
    split
    · refine .began s.cfg s.plant.events.fireChange s.sst.defaulted.any x ?_
      refine Relation.ReflTransGen.trans ?_ (State.settle_moves _)
      simp only [State.beginOperation]
      refine Relation.ReflTransGen.trans ?_ (State.evaluateWindows_moves _)
      have one : PlantChain (.start s.cfg s.plant.events.fireChange s.sst.defaulted.any x) ((s.begin x).onPlant (runPass s.cfg)).plant := by
        rw [State.onPlant_plant]
        exact (runPass_chain s.cfg _).chain
      generalize (s.begin x).onPlant (runPass s.cfg) = u at one ⊢
      have two : PlantChain (.start s.cfg s.plant.events.fireChange s.sst.defaulted.any x)
          (if x.panelKey then Zone.all.foldl State.placePanel u else u).plant := by
        split
        · exact one.trans (foldl_stateMoves State.placePanel_moves _ _)
        · exact one
      generalize (if x.panelKey then Zone.all.foldl State.placePanel u else u) = v at two ⊢
      split
      · exact two.trans (State.placeContact_moves _)
      · exact two
    · exact .went .refl
  case bFrameComplete bs =>
    split
    · exact .went .refl
    · split
      · exact .went ((State.completeB_moves _ _).trans (State.settle_moves _))
      · exact .went .refl
  case fFrameReceived bs =>
    split
    · exact .went .refl
    · split
      · exact .went ((State.completeF_moves _ _).trans (State.settle_moves _))
      · exact .went .refl
  case interbyteGapTimeout l =>
    split
    · exact .went .refl
    · exact .went ((State.breakFrame_moves _ _).trans (State.settle_moves _))
  case characterFramingError l =>
    split
    · exact .went .refl
    · exact .went ((State.breakFrame_moves _ _).trans (State.settle_moves _))
  case leadByte l =>
    split
    · exact .went .refl
    · exact .went ((State.startFrame_moves _ _).trans (State.settle_moves _))
  case minuteBoundary =>
    split
    · exact .went .refl
    · exact .went ((State.minuteBoundary_moves _).trans (State.settle_moves _))
  case clockSecond =>
    split
    · exact .went .refl
    · exact .went ((State.clockSecond_moves _).trans (State.settle_moves _))
  case bFrameTaken =>
    split
    · exact .went .refl
    · unfold State.takeHead
      split
      · exact .went .refl
      · rename_i f fs _
        exact State.Reached.of_plant (u := s.setQueue fs) rfl (State.take_reached _ _ _)
  case unknownRequest => exact s.take_reached _ _
  case powerLoss => exact .stopped rfl (fun z => by simp [State.unpower, Plant.blank]) rfl rfl rfl (fun f => by simp [State.unpower, Plant.fan, FanRec.blank])
  case restart straps => exact s.answer_restart _ _
  case readSummary => exact s.answer_request (r := .readSummary) (by decide) _
  case readZone z => exact s.answer_request (r := .readZone z) (by simp) _
  case readGroup z => exact s.answer_request (r := .readGroup z) (by simp) _
  case readFan z => exact s.answer_request (r := .readFan z) (by simp) _
  case readChannel z => exact s.answer_request (r := .readChannel z) (by simp) _
  case fetchEvents => exact s.answer_request (r := .fetchEvents) (by simp) _
  case claimExhaust z d => exact s.answer_request (r := .claimExhaust z d) (by simp) _
  case claimShut z => exact s.answer_request (r := .claimShut z) (by simp) _
  case release z => exact s.answer_request (r := .release z) (by simp) _
  case setBudget z => exact s.answer_request (r := .setBudget z) (by simp) _
  case clearBudget => exact s.answer_request (r := .clearBudget) (by simp) _
  case setClock a b c => exact s.answer_request (r := .setClock a b c) (by simp) _
  case adjustClock => exact s.answer_request (r := .adjustClock) (by simp) _
  case inhibit c t => exact s.answer_request (r := .inhibit c t) (by simp) _
  case restore c => exact s.answer_request (r := .restore c) (by simp) _
  case lockFan c => exact s.answer_request (r := .lockFan c) (by simp) _
  case unlockFan c => exact s.answer_request (r := .unlockFan c) (by simp) _
  case resetFan c => exact s.answer_request (r := .resetFan c) (by simp) _
  case openEdit c => exact s.answer_request (r := .openEdit c) (by simp) _
  case writeItem a b => exact s.answer_request (r := .writeItem a b) (by simp) _
  case commitEdit => exact s.answer_request (r := .commitEdit) (by simp) _
  case abandonEdit => exact s.answer_request (r := .abandonEdit) (by simp) _
  case readSetting a b => exact s.answer_request (r := .readSetting a b) (by simp) _
  case clearLink => exact s.answer_request (r := .clearLink) (by simp) _
  all_goals refine s.inService_reached ?_
  case bLinkSupervisionExpiry =>
    unfold State.expireBLink
    split
    · exact s.loseBLink_moves
    · exact .refl
  case fLinkSupervisionExpiry =>
    unfold State.expireFLink
    split
    · exact s.loseFLink_moves
    · exact .refl
  case zoneStateFrame => exact s.takeSlot_moves
  case generalFireContactChange b => exact s.changeContact_moves b
  case zoneSwitchChange z x => exact s.takePosition_moves z x
  case switchFault z => exact .refl
  case panelInControlKeyChange b => exact s.turnPanelKey_moves b
  case commissioningKeyChange b =>
    unfold State.turnCommissioningKey
    simp only
    split
    · split <;> exact .refl
    · exact .refl
  case lampTestChange => exact .refl
  case channelSample c q => exact s.convert_moves c _
  case inhibitExpiry c =>
    unfold State.expireInhibit
    split
    · exact startAt (State.endInhibit_moves _ c)
    · exact .refl
  case alarmDelayExpiry c =>
    unfold State.expireDelay
    simp only
    split
    · exact startAt (State.raise_moves _ _)
    · exact .refl
  case runOnExpiry z =>
    unfold State.expireRunOn
    split
    · exact startAt (State.recomputeZone_moves _ z _)
    · exact .refl
  case settleExpiry =>
    unfold State.expireSettle
    split
    · rename_i e
      simp only [State.onPlant_plant]
      exact endSettle_moves _ _ _ (by rw [e]; rfl)
    · exact .refl
  case startSpacingExpiry =>
    unfold State.expireSpacing
    split
    · simp only [State.onPlant_plant]
      exact (testQueue_chain _ _).chain
    · exact .refl
  case settingsWriteComplete =>
    unfold State.completeWrite
    split <;> exact .refl
  case rampPeriodEnd =>
    simp only [State.rampPeriod, State.onPlant_plant]
    exact ((tick_moves s.plant).trans (ramp_chain s.cfg _).chain).trans (testQueue_chain s.cfg _).chain
  all_goals simp only [State.onPlant_plant]
  case endSwitchChange z e b =>
    unfold changeEndSwitch
    split
    · exact .refl
    · exact damperEvent_moves _ _ _ (fun d => by rw [Damper.read_command]; cases e <;> rfl) _
  case travelExpiry z => exact damperEvent_moves _ _ _ Damper.expire_command _
  case runningFeedback f => exact changeDriveInput_moves _ _ _ _ _
  case airflowProven f => exact changeDriveInput_moves _ _ _ _ _
  case driveFault f => exact changeDriveInput_moves _ _ _ _ _
  case driveInputChange f i b => exact changeDriveInput_moves _ _ _ _ _
  case runTimeout f => exact (expireIn_chain _ _ _ _).chain
  case airflowTimeout f => exact (expireIn_chain _ _ _ _).chain
  case coastExpiry f => exact (expireIn_chain _ _ _ _).chain
  case airflowLoss f => exact airflowLost_moves _ _ _
  case supplyInputChange i b => exact changeSupplyInput_moves _ _ _ _ _

end Sys2Proof.Machine
end

