-- ==== Sys2Proof/Tests/Slice0.lean ====
section
/-! SUPPORT. Small tests: ill-formed commands that the check refuses, figures of the manual's tables and worked examples,
single steps, and for each statement with hypotheses a concrete state and operands that meet them. -/

namespace Sys2Proof.Tests

open Sys2Proof Sys2Proof.Machine

set_option Elab.async false

/-! ## The smoke of well-formedness -/

theorem test_frame_needs_bytes : (Instr.bFrameComplete []).wellFormed = false := by decide
theorem test_frame_needs_its_lead_byte : (Instr.bFrameComplete [0#8, 1#8]).wellFormed = false := by decide
theorem test_frame_has_a_longest : (Instr.fFrameReceived (leadOctet :: List.replicate 256 0#8)).wellFormed = false := by
  decide +kernel
theorem test_fire_frame_needs_its_lead_byte : (Instr.fFrameReceived [1#8]).wellFormed = false := by decide
theorem test_unknown_spells_no_request : (Instr.unknownRequest 2#8 [5#8]).wellFormed = false := by decide
theorem test_unknown_payload_has_a_longest :
    (Instr.unknownRequest 200#8 (List.replicate 251 0#8)).wellFormed = false := by decide +kernel
theorem test_wrong_length_is_unknown : (Instr.unknownRequest 2#8 [5#8, 1#8]).wellFormed = true := by decide

/-! ## Frames (chapter 13) -/

/-- The worked check of section 13.1: tag 1, Z3 in alarm. -/
theorem test_worked_check :
    Frame.bytes { address := 0#8, kind := 1#8, payload := [1#8, 4#8] } =
      [165#8, 0#8, 1#8, 2#8, 1#8, 4#8, 255#8, 247#8] := by decide

theorem test_worked_frame_is_read :
    (parseFrame [0#8, 1#8, 2#8, 1#8, 4#8, 255#8, 247#8]).bind ZoneStateFrame.ofFrame? =
      some { tag := true, reset := false, map := 4#8 } := by decide

theorem test_wrong_check_is_no_frame : parseFrame [0#8, 1#8, 2#8, 1#8, 4#8, 255#8, 246#8] = none := by decide

/-- CLAIM z EXHAUST d is kind 16 with z and d (section 13.3). -/
theorem test_claim_is_read : decodeRequest 16#8 [3#8, 60#8] = some (.claimExhaust 3#8 60#8) := by decide

/-- SET-BUDGET is kind 19 with two bytes, high byte first (section 13.3). -/
theorem test_budget_is_read : decodeRequest 19#8 [2#8, 88#8] = some (.setBudget 600#16) := by decide

/-! ## Figures of the manual -/

/-- The table under R122. -/
theorem test_power_table :
    [power 150 74, power 150 52, power 150 51, power 150 30, power 220 100, power 220 60, power 220 30] =
      [61, 22, 20, 5, 220, 48, 6] := by decide

/-- The table of channel demands under R56. -/
theorem test_demand_table :
    let co := { defaultChannel .c1 with zone := none }
    let no2 := { defaultChannel .c2 with zone := none }
    [channelDemand co 20 750 true, channelDemand co 20 260 true, channelDemand co 20 400 true,
      channelDemand no2 20 60 true, channelDemand no2 20 99 true, channelDemand co 20 240 true] =
      [74, 22, 36, 55, 99, 20] := by decide

/-- Rows 30, 40, 120, 150, 160 and 200 of section 3.11. -/
theorem test_alarm_rows :
    let x := defaultChannel .c1
    let at_ (a : AlarmState) (c : Nat) := (alarmAfter x c { alarm := a, delay := none, venting := true, demand := 0 }).1
    [at_ .normal 400, at_ .a1Pending 340, at_ .a1 750, at_ .a1 1020, at_ .a2 990, at_ .a2 900, at_ .a1 320] =
      [.a1Pending, .a1Pending, .a1, .a2, .a2, .a1, .normal] := by decide

/-- A SHUT claim stops the search for demands and a head of EXHAUST opens the zone (R10). -/
theorem test_demand_stops_at_shut :
    (resultOf [gasClaim { level := 4, demand := 40 }, bmsClaim .shut, scheduleClaim 90]).demand = 40 := by decide

/-- A window past midnight: its part after midnight belongs to the day before (R172). -/
theorem test_window_past_midnight :
    let w : Window := { days := 64#7, start := 1380, stop := 60, zones := 255#8, demand := 10 }
    [w.openAt 7 1380, w.openAt 1 59, w.openAt 1 60, w.openAt 7 59] = [true, true, false, false] := by decide

/-- A damper reversed before its start switch has cleared is home at once (R106). -/
theorem test_reversed_damper_is_home :
    (Damper.obey 60 false { Damper.blank with
      state := .opening, commandOpen := true, timer := some 58, closedSwitch := true }).state = .closed := by decide

/-! ## Small states -/

/-- A part in normal operation at address 1, with nothing claimed and every supply input clear. -/
def up : State := { State.reset with mode := .normal }

/-- `up` with the plant changed. -/
def upWith (f : Plant → Plant) : State := up.onPlant f

/-- `up` with fan F1's record changed. -/
def fanWith (f : FanRec → FanRec) : State := upWith fun p => p.setFan .f1 (f (p.fan .f1))

/-- `up` with an edit session. -/
def session (x : Session) : State := up.setSession x

/-- `up` with channel C1's record changed; its zone is Z1. -/
def channelWith (f : ChannelRec → ChannelRec) : State := up.setChannel .c1 (f (up.channel .c1))

/-- `up` with F1 in STARTING and its timer run out. -/
def failing (fire : Bool) (n : Nat) : State :=
  fanWith fun r => { r with state := .starting, run := true, timer := some 0, fire := fire, attempts := n }

/-- The frame that CLEAR-LINK arrives in at address 1. -/
def clearFrame : Frame := { address := 1#8, kind := 49#8, payload := [] }

theorem plain_of {s : State} (m : s.mode = .normal) (h : s.sst.session = .none) : s.Plain :=
  ⟨m, fun v => by rw [h]; exact (fun x => nomatch x)⟩

theorem addressed_of {s : State} (m : s.mode = .normal) (h : s.sst.session = .none) (a : s.bli.address = 1) :
    s.Addressed := ⟨plain_of m h, by rw [a]; decide⟩

theorem up_plain : up.Plain := plain_of rfl rfl
theorem up_addressed : up.Addressed := addressed_of rfl rfl rfl
theorem fanWith_plain (f : FanRec → FanRec) : (fanWith f).Plain := plain_of rfl rfl
theorem fanWith_addressed (f : FanRec → FanRec) : (fanWith f).Addressed := addressed_of rfl rfl rfl

/-- With an empty queue, nothing staged and no fan QUEUED, the start queue is in order. -/
theorem fanWith_queue (f : FanRec → FanRec) (h : (f .blank).state ≠ .queued) : (fanWith f).plant.QueueOk := by
  refine ⟨(fun e he => nomatch he), List.nodup_nil, List.nodup_nil, fun g hg => ?_, List.Pairwise.nil, (fun x hx => nomatch hx)⟩
  cases g <;> first | exact absurd hg h | cases hg

/-! ## Single steps -/

/-- A part out of reset answers BUSY, result 1, until LOADING_COMPLETE (R177, R185). -/
theorem test_loading_is_busy :
    (match exec .clearLink State.reset with
      | .next t => t.wire.bLink
      | _ => []) = [[165#8, 1#8, 177#8, 1#8, 1#8, 255#8, 75#8]] := by decide +kernel

/-- CLAIM Z3 EXHAUST 200 places a demand of 100 and opens the damper (R104, R180). -/
theorem test_claim_opens_the_damper :
    (match exec (.claimExhaust 3#8 200#8) up with
      | .next t => (((t.plant.zones.get .z3).result.demand, (t.plant.dampers.get .z3).commandOpen) : Nat × Bool)
      | _ => (0, false)) = (100, true) := by decide +kernel

/-- The worked frame makes Z3 an ACTIVE origin and shuts its neighbours (R16, R21, section 4.10). -/
theorem test_fire_shuts_the_neighbours :
    (match exec .zoneStateFrame { up with fif := { up.fif with slot := some ⟨true, false, 4#8⟩ } } with
      | .next t => Zone.all.map fun z => (t.plant.zones.get z).result.directive
      | _ => []) = [.idle, .shut, .opened, .shut, .idle, .idle, .idle, .idle] := by decide +kernel

/-- A fire fan's first failed start is counted and retried; its third trips it (R153). -/
theorem test_third_attempt_trips :
    [0, 2].map (fun n => match exec (.runTimeout .f1) (fanWith fun r =>
        { r with state := .starting, run := true, fire := true, attempts := n, timer := some 0 }) with
      | .next t => ((t.plant.fan .f1).state, (t.plant.fan .f1).attempts)
      | _ => (.off, 0)) = [(.queued, 1), (.tripped, 3)] := by decide +kernel

/-- An alarm delay of 60 s of which 40 have run, under a new T_A1 of 50 and of 30: 10 s are left, and A1 at once (R67). -/
theorem test_delay_under_new_settings :
    let s (n : Nat) := (channelWith fun r =>
      { r with condition := .active, ring := some ⟨340, 340, 340, 340⟩, average := 340 }).setEval .c1
        { alarm := .a1Pending, delay := some 20, venting := true, demand := 31 } |>.setSession (.committing (.channels
          { factory.channels with channel := factory.channels.channel.set .c1 { defaultChannel .c1 with alarmDelay := n } })
          false)
    [50, 30].map (fun n => match exec .settingsWriteComplete (s n) with
      | .next t => ((t.eval .c1).alarm, (t.eval .c1).delay, t.plant.events.gasAlarm)
      | _ => (.normal, none, false)) = [(.a1Pending, some 10, false), (.a1, none, true)] := by decide +kernel

/-- Losing both supply contacts drops a running fan (R163). -/
theorem test_lost_supply_drops_a_fan :
    (match exec (.supplyInputChange .mainsHealthy false) { fanWith (fun r => { r with state := .running, run := true, output := 60 })
        with plant := { (fanWith (fun r => { r with state := .running, run := true, output := 60 })).plant with
          spm := { mainsHealthy := true, generatorOnline := false, state := .mains, settle := none } } } with
      | .next t => ((t.plant.fan .f1).state, (t.plant.fan .f1).output)
      | _ => (.locked, 1)) = (.off, 0) := by decide +kernel

/-- An OPEN-EDIT of ZONES without the commissioning key is PROTECTED, result 3 (R188). -/
theorem test_zones_are_protected : (up.openEdit 1#8).2 = .refused .barred := by decide +kernel

/-! ## The hypotheses of the statements can be met -/

theorem witness_StepRunsTheFrontCommand :
    ({ up with pending := [.clearLink] } : State).pending = [.clearLink] ∧ up.pending = [] := ⟨rfl, rfl⟩

theorem witness_RequestsReadBack : decodeRequest 49#8 [] = some .clearLink := by decide

theorem witness_FramesReadBack :
    clearFrame.payload.length ≤ 250 ∧ (List.replicate 250 0#8).length ≤ 250 ∧
      parseFrame [0#8, 1#8, 2#8, 1#8, 4#8, 255#8, 247#8] = some ⟨0#8, 1#8, [1#8, 4#8]⟩ := by decide +kernel

/-- A state with a command waiting that a step takes: the invariants hold of it and the step answers. -/
def waiting : State := { up with pins := up.refreshPins.pins, pending := [.lampTestChange true] }

/-- Whether a step answers a next state, a powered one. -/
def runs (s : State) : Bool :=
  match step s with
  | .next t => t.mode != .unpowered
  | _ => false

theorem waiting_runs : runs waiting = true := by decide +kernel

theorem witness_ClaimTableStaysRanked : waiting.plant.TableOk ∧ runs waiting = true := by
  refine ⟨⟨fun z => ?_, List.nodup_nil⟩, waiting_runs⟩
  cases z <;> exact ⟨⟨List.Pairwise.nil, List.nodup_nil⟩, rfl⟩

theorem witness_DamperCommandsFollowDirectives :
    waiting.plant.CommandsFollow ∧ runs waiting = true := by
  refine ⟨fun z => ?_, waiting_runs⟩
  cases z <;> rfl

theorem witness_SourcesStayInStep : waiting.SourcesAgree ∧ runs waiting = true := by
  refine ⟨fun z => ?_, waiting_runs⟩
  cases z <;> exact ⟨rfl, rfl, rfl, rfl⟩

theorem witness_StartQueueHoldsTheQueuedFans :
    waiting.plant.QueueOk ∧ waiting.plant.OneStart ∧ runs waiting = true := by
  refine ⟨fanWith_queue id (by decide), fun f g h => ?_, waiting_runs⟩
  cases f <;> cases h

theorem witness_SupplyHoldStopsEveryFan :
    waiting.plant.HoldOk ∧ runs waiting = true := by
  refine ⟨⟨fun f => ?_, rfl, (fun h => nomatch h), fun _ => ⟨rfl, fun f => ?_⟩⟩, waiting_runs⟩ <;> cases f <;> rfl

theorem witness_ListsAndClockStayInRange :
    waiting.InhibitsOk ∧ waiting.ReceiveOk ∧ waiting.ClockOk ∧ runs waiting = true :=
  ⟨⟨by decide, List.nodup_nil, List.Pairwise.nil⟩, ⟨by decide, by decide, fun _ => rfl⟩,
    ⟨by decide, by decide, by decide, by decide, fun _ => ⟨rfl, rfl, rfl⟩⟩, waiting_runs⟩

theorem witness_ReadingsFollowTheRings : waiting.ReadingsOk ∧ runs waiting = true := by
  refine ⟨fun c => ?_, waiting_runs⟩
  cases c <;> exact ⟨rfl, fun _ => rfl, by decide⟩

theorem witness_OutputsFollowTheState :
    waiting.OutputsOk ∧ waiting.StatusesOk ∧ waiting.mode = .normal ∧ runs waiting = true := by
  refine ⟨State.refreshPins_says up rfl, fun z => ?_, rfl, waiting_runs⟩
  cases z <;> exact ⟨fun _ => rfl, fun _ _ h => nomatch h⟩

/-- A claim that changes Z3's directive leaves ZONE-CHANGE pending (R11). -/
theorem witness_OutputsFollowTheState_change :
    (match step { up with pending := [.claimExhaust 3#8 60#8] } with
      | .next t => (t.plant.zones.get .z3).result.directive != (up.plant.zones.get .z3).result.directive &&
          t.mode == .normal && t.plant.events.zoneChange
      | _ => false) = true := by decide +kernel

/-- C1's factory settings: S 250, A1 350, A2 1000, H 20, T_A1 60. -/
theorem witness_VentingFlagHasHysteresis :
    let x := defaultChannel .c1
    x.start ≤ 250 ∧ (229 < x.start ∧ 229 < x.start - x.hysteresis) ∧
      (x.start - x.hysteresis ≤ 230 ∧ 230 < x.start) ∧ (x.start - x.hysteresis ≤ 249 ∧ 249 < x.start) := by decide

theorem witness_NormalChannelMeetsItsThresholds :
    let x := defaultChannel .c1
    let e : ChannelEval := { ChannelEval.blank with alarm := .a1Pending, delay := some 5 }
    ChannelEval.blank.alarm = .normal ∧ x.alarm2 ≤ 1000 ∧ (x.alarm1 ≤ 350 ∧ 350 < x.alarm2 ∧ 0 < x.alarmDelay) ∧
      ({ x with alarmDelay := 0 } : ChannelSetting).alarmDelay = 0 ∧ (349 < x.alarm1 ∧ 349 < x.alarm2) ∧
      ((ChannelEval.blank.evaluate x 20 350).alarm = .a1Pending ∧ ChannelEval.blank.alarm ≠ .a1Pending) ∧
      e.alarm = .a1Pending ∧ (x.alarm1 - x.hysteresis ≤ 330 ∧ 330 < x.alarm2) ∧
      (329 < x.alarm1 - x.hysteresis ∧ 329 < x.alarm2) := by decide

theorem witness_AlarmedChannelFallsByHysteresis :
    let x := defaultChannel .c1
    (x.alarm1 < x.alarm2 ∧ x.hysteresis < x.alarm1) ∧ x.alarm2 ≤ 1000 ∧
      (x.alarm1 - x.hysteresis ≤ 330 ∧ 330 < x.alarm2) ∧ 329 < x.alarm1 - x.hysteresis ∧
      x.alarm2 - x.hysteresis ≤ 980 ∧ (x.alarm1 - x.hysteresis ≤ 979 ∧ 979 < x.alarm2 - x.hysteresis) := by decide

/-- `up`'s plant on the mains supply. -/
def onMains : Plant := { up.plant with spm := { up.plant.spm with state := .mains } }

theorem witness_GrantsFitTheBudget :
    onMains.supplyHold = false ∧ (allocate factory onMains).fireShort = false ∧ up.plant.supplyHold = true :=
  ⟨by decide +kernel, by decide +kernel, by decide +kernel⟩

/-- A plant with the factory duty orders. -/
def dutied (p : Plant) : Plant :=
  { p with gal := { p.gal with groups := .build fun g => { p.gal.groups.get g with duty := factory.groupFans g } } }

/-- The mains plant with the factory duty orders, after the fire contact's claim was placed on Z1. -/
def onFire : Plant := place factory .z1 fireContactClaim (dutied onMains)

theorem witness_ListsAndClockStayInRange_duty :
    (waiting.onPlant dutied).DutyOk ∧ runs (waiting.onPlant dutied) = true := by
  refine ⟨fun _ g => ⟨?_, fun f => ?_⟩, by decide +kernel⟩
  · cases g <;> decide
  · cases g <;> cases f <;> decide

theorem witness_FireClassIsGrantedInFull :
    onFire.supplyHold = false ∧ ((allocate factory onFire).groups.get .g1).cls = .fire ∧
      ((allocate factory onFire).groups.get .g1).chosen ≠ [] ∧ up.plant.supplyHold = true :=
  ⟨by decide +kernel, by decide +kernel, by decide +kernel, by decide +kernel⟩

/-- The group of Z1 under the fire contact's demand of 100 has three fans and needs them all; with F1 TRIPPED it needs
more than are available; the others have no demand; without fans in the FANS block none is installed. -/
theorem witness_FireClassIsGrantedInFull_records :
    (let x := (allocate factory onFire).groups.get .g1
     .z1 ∈ x.counted ∧ 0 < x.demand ∧ 0 < x.installed ∧ x.demand * x.installed ≤ 100 * 3 ∧
       100 * 3 < x.demand * x.installed + 100 ∧ 3 ≤ x.available ∧ x.demand * x.installed ≤ 100 * 3 ∧
       100 * 3 < x.demand * x.installed + 3) ∧
    ((allocate factory (onFire.setFan .f1 { onFire.fan .f1 with state := .tripped })).groups.get .g1).available < 3 ∧
    ((allocate factory onFire).groups.get .g2).demand = 0 ∧
    ((allocate { factory with fans := { factory.fans with group := .build fun _ => none } } onFire).groups.get
      .g1).installed = 0 := by decide +kernel

/-- A rotation: a group that granted a fan before and grants none now. -/
theorem witness_FireClassIsGrantedInFull_rotation :
    ¬(∀ c ∈ [(⟨.f1, 5⟩ : Chosen)], c.granted = 0) ∧ ∀ c ∈ [(⟨.f1, 0⟩ : Chosen)], c.granted = 0 := by decide

/-- Under the fire contact F1 is a chosen fan of its group, and F4 is none of any group. -/
theorem witness_FireClassIsGrantedInFull_grants :
    (∀ g, (onFire.gal.groups.get g).duty.Nodup ∧
      ∀ h ∈ (onFire.gal.groups.get g).duty, factory.fans.group.get h = some g) ∧
    (∃ c ∈ ((allocate factory onFire).groups.get .g1).chosen, c.fan = .f1) ∧ onFire.supplyHold = false ∧
    ∀ g, ∀ c ∈ ((allocate factory onFire).groups.get g).chosen, c.fan ≠ .f4 := by
  refine ⟨fun g => ?_, by decide +kernel, by decide +kernel, fun g => ?_⟩ <;> cases g <;> decide +kernel

/-- The fire plant without the start queue's hold: F1, F2 and F3 are queued as FIRE entries, F1's drive fault is made,
and the spacing is `n`. -/
def queued (n : Option Nat) : Plant :=
  let p := onFire.setFan .f1 { onFire.fan .f1 with driveFault := true }
  { p with fsq := { p.fsq with hold := false, spacing := n } }

/-- A pass over queued fans, F1 with its drive fault made and granted the fire flag: with the spacing stopped the head is
launched, and while it runs nothing is. -/
theorem witness_FireClassIsGrantedInFull_pass :
    (queued none).QueueOk ∧ (queued none).HoldOk ∧ ((queued none).fan .f1).driveFault = true ∧
      (∀ f, ((queued none).fan f).driveFault = true → ((allocate factory (queued none)).grants.get f).fire = true) ∧
      (runPass factory (queued none)).fsq.queue.map QueueEntry.fan = [.f2, .f3] ∧
      (runPass factory (queued (some 5))).fsq.queue.map QueueEntry.fan = [.f1, .f2, .f3] := by
  refine ⟨⟨by decide +kernel, by decide +kernel, by decide +kernel, fun f => ?_, by decide +kernel, fun x hx => ?_⟩,
    ⟨fun f => ?_, by decide +kernel, ?_, ?_⟩, by decide +kernel, fun f => ?_, by decide +kernel, by decide +kernel⟩
  · cases f <;> decide +kernel
  · exact absurd hx (by rw [show (queued none).fsq.staged = none by decide +kernel]; exact nofun)
  · cases f <;> decide +kernel
  · decide +kernel
  · exact fun h => absurd h (by decide +kernel)
  · cases f <;> decide +kernel

/-- A class of one group with two chosen fans at 100, by the factory settings: 220 each, 6 each at V_min 30. -/
def classOf : PerGroup GroupRec :=
  (PerGroup.build fun _ => GroupRec.blank).set .g1 { GroupRec.blank with speed := 100, chosen := [⟨.f1, 0⟩, ⟨.f2, 0⟩] }

/-- What the class draws at the speeds `v`. -/
def drawn (v : Group → Nat) : Nat :=
  (Group.all.map fun g => if (classOf.get g).cls = .normal then
    ((classOf.get g).chosen.map fun c => power (factory.fans.rated.get c.fan) (v g)).sum else 0).sum

/-- The class against three remainders: its wish fits, the cap of 60 is the largest that fits, no cap fits. -/
theorem witness_GrantsFitTheBudget_classes :
    let capped (c : Nat) (g : Group) : Nat := max (factory.fans.vMin.get g) (min (classOf.get g).speed c)
    drawn (fun g => (classOf.get g).speed) ≤ 440 ∧
      (96 < drawn (fun g => (classOf.get g).speed) ∧ drawn (capped 60) ≤ 96 ∧ ∀ d < 101, 60 < d → 96 < drawn (capped d)) ∧
      (∀ c < 101, 20 ≤ c → 11 < drawn (capped c)) ∧
      shedFrom (.build fun _ => 0) = none ∧ shedFrom (.build fun _ => 1) = some .g4 := by decide +kernel

theorem witness_GrantsFitTheBudget_short :
    (allocate factory { onFire with gal := { onFire.gal with budget := 0 } }).short = true ∧ onFire.supplyHold = false ∧
      up.plant.supplyHold = true := by decide +kernel

theorem witness_LoadingEndsInNormalOperation : State.reset.mode = .loading ∧ State.reset.NothingWaits :=
  ⟨rfl, (fun _ x => nomatch x)⟩

theorem witness_LoadingAnswersBusyAndTakesNoInput :
    let s := State.reset
    let set (n : Nat) : State := { s with dck := { s.dck with isSet := true, second := n } }
    s.mode = .loading ∧ s.bli.address ≠ 0 ∧ (s.setQueue [clearFrame]).bli.queue = [clearFrame] ∧
      (parseFrame [] = none ∧ parseFrame (clearFrame.bytes.drop 1) = some clearFrame ∧
        clearFrame.address.toNat = s.bli.address) ∧
      (s.bli.latch = false ∧ s.bli.queue.length < 2 ∧ 2 ≤ (s.setQueue [clearFrame, clearFrame]).bli.queue.length) ∧
      (s.assembling .bLink = false ∧ (s.setAssembling .fLink true).assembling .fLink = true) ∧
      (s.dck.isSet = false ∧ (set 58).dck.isSet = true ∧ (set 58).dck.second ≠ 59 ∧ (set 59).dck.second = 59) ∧
      ({ s with mode := .unpowered } : State).mode = .unpowered ∧ Instr.rampPeriodEnd ≠ .powerLoss := by decide +kernel

theorem witness_RestartKeepsClockAndContact :
    (up.mode = .normal ∧ up.bli.address ≠ 0 ∧ up.inFlight = false ∧ up.plant.fireSide = false) ∧
      ((session (.committing (.budget factory.budget) false)).inFlight = true ∧
        (session (.committing (.budget factory.budget) false)).WaitingOk) ∧
      (upWith fun p => p.setClaims .z1 [panelClaim .shut]).plant.fireSide = true :=
  ⟨by decide +kernel, ⟨rfl, (fun _ _ x => nomatch x)⟩, by decide +kernel⟩

theorem witness_ReceiverQueuesFramesForThePart :
    up.Plain ∧ parseFrame [] = none ∧ parseFrame (clearFrame.bytes.drop 1) = some clearFrame ∧
      clearFrame.address.toNat = up.bli.address ∧ up.bli.latch = false ∧ up.bli.queue.length < 2 ∧
      2 ≤ (up.setQueue [clearFrame, clearFrame]).bli.queue.length := ⟨up_plain, by decide +kernel⟩

theorem witness_BrokenFramesAreDiscarded :
    up.Plain ∧ up.assembling .bLink = false ∧ (up.setAssembling .bLink true).Plain ∧
      (up.setAssembling .bLink true).bli.assembling = true ∧ (up.setAssembling .fLink true).fif.assembling = true :=
  ⟨up_plain, rfl, plain_of rfl rfl, rfl, rfl⟩

theorem witness_TakenFrameRunsItsRequest :
    up.mode ≠ .unpowered ∧ up.bli.queue = [] ∧ (up.setQueue [clearFrame]).bli.queue = [clearFrame] ∧
      decodeRequest clearFrame.kind clearFrame.payload = some .clearLink ∧ decodeRequest 99#8 [] = none ∧
      decodeRequest 48#8 [] = some .restart ∧ up.mode = .normal ∧ up.bli.address ≠ 0 := by decide

theorem witness_RefusedFramesRestartSupervision :
    up.Addressed ∧ decodeRequest 2#8 [] = none ∧ ((0#8).toNat < 1 ∨ 8 < (0#8).toNat) ∧
      ((9#8).toNat < 1 ∨ 8 < (9#8).toNat) ∧ ((5#8).toNat < 1 ∨ 4 < (5#8).toNat) ∧
      ((13#8).toNat < 1 ∨ 12 < (13#8).toNat) ∧ ((17#8).toNat < 1 ∨ 16 < (17#8).toNat) :=
  ⟨up_addressed, by decide⟩

theorem witness_ReadsAnswerTheirRecords :
    up.Addressed ∧ (8#8).toNat = Zone.z8.number ∧ (4#8).toNat = Group.g4.number ∧ (12#8).toNat = Fan.f12.number ∧
      (16#8).toNat = Channel.c16.number ∧ Block.ofNumber? (5#8).toNat = some .budget ∧
      (up.sst.inForce.copy .budget).item (1#16).toNat = some 2000 ∧
      ((Block.ofNumber? (7#8).toNat).bind fun b => (up.sst.inForce.copy b).item (1#16).toNat) = none :=
  ⟨up_addressed, by decide +kernel⟩

theorem witness_BmsClaimsComeAndGo :
    up.Addressed ∧ (1#8).toNat = Zone.z1.number ∧ 0 < (1#8).toNat ∧ up.bli.held.get .z1 = none ∧
      ((up.holdBms .z1 (some .shut)).bli.held.get .z1).isSome = true ∧ (up.holdBms .z1 (some .shut)).Addressed :=
  ⟨up_addressed, rfl, by decide, rfl, rfl, addressed_of rfl rfl rfl⟩

theorem witness_BudgetCapBoundsTheBudget :
    (upWith fun _ => onMains).Addressed ∧
      (upWith fun _ => onMains).plant.supplyHold = false ∧ (upWith fun _ => onMains).plant.spm.state = .mains ∧
      (session (.committing (.budget factory.budget) false)).mode = .normal ∧ up.plant.supplyHold = true ∧
      up.plant.gal.budget = 0 :=
  ⟨addressed_of rfl rfl rfl, rfl, rfl, rfl, rfl, rfl⟩

theorem witness_WindowsOpenByDayAndMinute :
    let w : Window := { days := 64#7, start := 1380, stop := 60, zones := 255#8, demand := 10 }
    w.stop < w.start ∧ w.openAt 7 1380 = true ∧ maskHas w.zones .z1 = true ∧
      ({ w with stop := 1439 } : Window).start < ({ w with stop := 1439 } : Window).stop ∧
      ({ w with stop := 1380 } : Window).start = ({ w with stop := 1380 } : Window).stop := by decide

/-- `up` with a set clock at a second. -/
def clockAt (n : Nat) : State := { up with dck := { up.dck with isSet := true, second := n } }

theorem witness_ClockRequestsSetTheWindows :
    up.Addressed ∧ (1 ≤ (7#8).toNat ∧ (7#8).toNat ≤ 7 ∧ (1439#16).toNat ≤ 1439 ∧ (59#8).toNat ≤ 59) ∧
      ¬(1 ≤ (0#8).toNat ∧ (0#8).toNat ≤ 7 ∧ (1439#16).toNat ≤ 1439 ∧ (59#8).toNat ≤ 59) ∧ up.dck.isSet = false ∧
      ((clockAt 29).Addressed ∧ (clockAt 29).dck.isSet = true ∧ (clockAt 29).dck.second < 30) ∧
      30 ≤ (clockAt 30).dck.second :=
  ⟨up_addressed, by decide, by decide, rfl, ⟨addressed_of rfl rfl rfl, rfl, by decide⟩, by decide⟩

/-- Two open windows cover Z1 with demands 10 and 30, and none covers Z2; a WINDOWS commit is in flight. -/
theorem witness_ClockRequestsSetTheWindows_windows :
    let w : Window := { days := 64#7, start := 0, stop := 60, zones := 1#8, demand := 10 }
    let x : PerWindow Window := (PerWindow.build fun _ => w).set .w2 { w with demand := 30 }
    let d : Dck := { (clockAt 0).dck with day := 7 }
    d.isSet = true ∧ wantedSchedule x d .z1 = some 30 ∧ wantedSchedule x d .z2 = none ∧
      (session (.committing (.windows x) false)).mode = .normal := by decide +kernel

theorem witness_ClockCountsSeconds :
    up.Plain ∧ up.dck.isSet = false ∧ (clockAt 58).Plain ∧ (clockAt 58).dck.second ≠ 59 ∧ (clockAt 59).Plain ∧
      (clockAt 59).dck.isSet = true ∧ (clockAt 59).dck.second = 59 :=
  ⟨up_plain, rfl, plain_of rfl rfl, by decide, plain_of rfl rfl, rfl, rfl⟩

theorem witness_LockTakesAFanOutOfService :
    ((fanWith id).Addressed ∧ (fanWith id).plant.QueueOk ∧ (1#8).toNat = Fan.f1.number ∧
      ((fanWith id).plant.fan .f1).state ≠ .locked ∧
      ¬(((fanWith id).plant.fan .f1).state.inService = true ∧ ((fanWith id).plant.fan .f1).fire = true)) ∧
    (((fanWith fun r => { r with state := .running, fire := true }).plant.fan .f1).state.inService = true ∧
      ((fanWith fun r => { r with state := .running, fire := true }).plant.fan .f1).fire = true) ∧
    ((fanWith fun r => { r with state := .locked }).plant.fan .f1).state = .locked :=
  ⟨⟨fanWith_addressed _, fanWith_queue _ (by decide), rfl, by decide +kernel, by decide +kernel⟩, ⟨rfl, rfl⟩, rfl⟩

/-- `up` with F1 TRIPPED. -/
def tripped : State := fanWith fun r => { r with state := .tripped, cause := .driveFault }

theorem witness_ReturnedFansGoToOff :
    tripped.Addressed ∧ tripped.plant.QueueOk ∧ (1#8).toNat = Fan.f1.number ∧
      (tripped.plant.fan .f1).state = .tripped ∧ (tripped.plant.fan .f1).state ≠ .locked ∧
      tripped.plant.HoldOk ∧ tripped.plant.supplyHold = true ∧
      ((fanWith fun r => { r with state := .locked }).plant.fan .f1).state = .locked := by
  refine ⟨fanWith_addressed _, fanWith_queue _ (by decide), rfl, rfl, by decide +kernel,
    ⟨fun f => ?_, rfl, (fun h => nomatch h), fun _ => ⟨rfl, fun f => ?_⟩⟩, rfl, rfl⟩ <;> cases f <;> rfl

theorem witness_EditRequestsFollowTheSession :
    up.Addressed ∧ up.sst.session = .none ∧
      (session (.opened (.budget factory.budget) false)).Addressed ∧
      (session (.opened (.budget factory.budget) true)).sst.session = .opened (.budget factory.budget) true ∧
      (session (.committing (.budget factory.budget) false)).Addressed ∧
      (Block.ofNumber? (1#8).toNat = some .zones ∧ Block.protected? .zones = true ∧ up.pif.commissioningKey = false) ∧
      (BlockValue.budget factory.budget).write (1#16).toNat (9999#16).toNat =
        some (.budget { factory.budget with mains := 9999 }) ∧
      (BlockValue.budget factory.budget).write (3#16).toNat (1#16).toNat = none := by
  refine ⟨up_addressed, rfl, ⟨⟨rfl, (fun _ x => nomatch x)⟩, ?_⟩, rfl, ⟨⟨rfl, (fun _ x => nomatch x)⟩, ?_⟩, ?_⟩ <;>
    decide +kernel

/-- Each block takes a value at a boundary of an item's range. -/
theorem witness_EditRequestsFollowTheSession_items :
    [(BlockValue.zones factory.zones).write 18 3, (BlockValue.fans factory.fans).write 28 60,
      (BlockValue.channels factory.channels).write 152 100, (BlockValue.timers factory.timers).write 10 3600,
      (BlockValue.windows factory.windows).write 20 100].map Option.isSome = [true, true, true, true, true] ∧
    [(BlockValue.zones factory.zones).write 18 4, (BlockValue.fans factory.fans).write 0 1,
      (BlockValue.channels factory.channels).write 153 1, (BlockValue.timers factory.timers).write 11 60,
      (BlockValue.windows factory.windows).write 20 9].map Option.isSome = [false, false, false, false, false] := by
  decide +kernel

theorem witness_CommitChecksThenStarts :
    (session (.opened (.zones factory.zones) false)).Addressed ∧
      (BlockValue.zones factory.zones).consistent = true ∧
      (BlockValue.zones { factory.zones with adjacency := .build fun _ => 255#8 }).consistent = false ∧
      (BlockValue.zones factory.zones).block.protected? = true ∧
      (fanWith fun r => { r with state := .running }).commitCondition = false ∧
      (session (.opened (.zones factory.zones) false)).plant.fireSide = false ∧
      ∀ f, ((session (.opened (.zones factory.zones) false)).plant.fan f).state ∈ [FanState.off, .tripped, .locked] := by
  refine ⟨⟨⟨rfl, (fun _ x => nomatch x)⟩, by decide⟩, by decide +kernel, by decide +kernel, rfl, by decide +kernel,
    by decide +kernel, fun f => ?_⟩
  cases f <;> decide +kernel

theorem witness_WrittenBlocksComeIntoForce :
    ((session (.committing (.zones factory.zones) false)).mode = .normal ∧
      (session (.committing (.zones factory.zones) false)).commitCondition = true) ∧
    ((fanWith fun r => { r with state := .running }).setSession (.committing (.zones factory.zones) true)).commitCondition =
      false ∧
    Block.protected? .budget = false := by decide +kernel

/-- `up` with F1 about to end its coasting and a ZONES block waiting on it. -/
def coasting : State :=
  { (fanWith fun r => { r with state := .stopping, timer := some 0 }).setSession
      (.committing (.zones factory.zones) true) with pending := [.coastExpiry .f1] }

theorem witness_WrittenBlocksComeIntoForce_waiting :
    coasting.WaitingOk ∧ coasting.mode = .normal ∧
      coasting.sst.session = .committing (.zones factory.zones) true ∧
      (∀ z, ∀ c ∈ (coasting.plant.zones.get z).claims, c.level < 5) ∧ (coasting.plant.fan .f1).state = .stopping ∧
      (coasting.plant.fan .f1).timer = some 0 ∧
      (∀ g, g ≠ .f1 → (coasting.plant.fan g).state ∈ [FanState.off, .tripped, .locked]) ∧ runs coasting = true := by
  refine ⟨fun _ v h => ?_, rfl, rfl, fun z => ?_, rfl, rfl, fun g hg => ?_, by decide +kernel⟩
  · cases h
    exact ⟨.inl rfl, .inr ⟨.f1, by decide +kernel⟩⟩
  · cases z <;> exact fun c hc => nomatch hc
  · cases g <;> first | exact absurd rfl hg | decide +kernel

/-- A FANS and a TIMERS block in flight; the timers of `up` all run on, as none runs, and a travel time of 60 with 1 left
has run out under a travel time of 10. -/
theorem witness_WrittenBlocksComeIntoForce_fans_timers :
    (session (.committing (.fans factory.fans) false)).commitCondition = true ∧
      (session (.committing (.timers factory.timers) false)).mode = .normal ∧
      (∀ z, (up.plant.dampers.get z).timer = none) ∧ (∀ f, (up.plant.fan f).timer = none) ∧
      up.plant.fsq.spacing = none ∧ up.plant.spm.settle = none ∧ up.fif.timer = none ∧ up.bli.timer = none ∧
      (factory.timers.travel = 60 ∧ ¬60 < 10 + 1 + 40) ∧
      ((failing false 0).plant.fan .f1).state = .starting ∧ ((failing false 0).plant.fan .f1).timer = some 0 ∧
      ((failing false 0).plant.fan .f1).fire = false := by
  refine ⟨by decide +kernel, rfl, fun z => ?_, fun f => ?_, rfl, rfl, rfl, rfl, by decide, rfl, rfl, rfl⟩
  · cases z <;> rfl
  · cases f <;> rfl

/-- A CHANNELS block in flight that unassigns C1, newly assigns C3, moves C2 and changes C4's threshold alone. -/
theorem witness_WrittenBlocksComeIntoForce_channels :
    let x := factory.channels.channel
    let moved := ((x.set .c1 { x.get .c1 with zone := none }).set .c2 { x.get .c2 with fullScale := 77 }).set .c4
      { x.get .c4 with start := 1 + (x.get .c4).start }
    (session (.committing (.channels { factory.channels with channel := moved }) false)).mode = .normal ∧
      (x.get .c1).zone ≠ none ∧ (moved.get .c1).zone = none ∧ (moved.get .c2).fullScale ≠ (x.get .c2).fullScale ∧
      (moved.get .c2).zone ≠ none ∧ (moved.get .c4).start ≠ (x.get .c4).start ∧
      (moved.get .c4).zone = (x.get .c4).zone ∧ moved.get .c5 = x.get .c5 := by decide +kernel

theorem witness_LostBLinkWithdrawsTheBms :
    let s : State := { up with bli := { up.bli with link := .up, timer := some 0 } }
    s.Plain ∧ s.bli.link = .up ∧ s.bli.timer = some 0 ∧ s.SourcesAgree := by
  refine ⟨plain_of rfl rfl, rfl, rfl, fun z => ?_⟩
  cases z <;> exact ⟨rfl, rfl, rfl, rfl⟩

theorem witness_ContactFallbackPlacesItsClaims :
    let s : State := { up with fif := { up.fif with link := .up, timer := some 0, contact := true } }
    s.Plain ∧ s.fif.link = .up ∧ s.fif.timer = some 0 ∧ s.fif.contact = true ∧ s.fif.contact ≠ false ∧
      up.fif.contact ≠ true ∧ up.fif.contact = false ∧
      (session (.committing (.zones factory.zones) false)).commitCondition = true :=
  ⟨plain_of rfl rfl, rfl, rfl, rfl, by decide, by decide, rfl, by decide +kernel⟩

theorem witness_ZoneStateFramesTakeTheSlot :
    up.Plain ∧ parseFrame [0#8, 1#8, 2#8, 1#8, 4#8, 255#8, 247#8] = some ⟨0#8, 1#8, [1#8, 4#8]⟩ ∧
      parseFrame [] = none ∧ parseFrame (clearFrame.bytes.drop 1) = some clearFrame ∧ clearFrame.kind ≠ 1#8 :=
  ⟨up_plain, by decide +kernel⟩

theorem witness_ZoneStateFramesUpdateTheFireOrder :
    let s : State := { up with fif := { up.fif with slot := some ⟨true, false, 4#8⟩ } }
    s.Plain ∧ s.fif.slot = some ⟨true, false, 4#8⟩ ∧ s.fif.lastTag ≠ some true ∧
      ({ s with fif := { s.fif with lastTag := some true } } : State).fif.lastTag = some true ∧ up.fif.slot = none :=
  ⟨plain_of rfl rfl, rfl, by decide, rfl, rfl⟩

/-- `up` with the panel-in-control key ON. -/
def keyed : State := { up with pif := { up.pif with panelKey := true } }

theorem witness_PanelClaimsFollowSwitchesAndKey :
    keyed.Plain ∧ up.pif.panelKey = false ∧ claimAsked .off = some .shut ∧ keyed.pif.panelKey = true ∧
      keyed.pif.position.get .z1 ≠ .off ∧ keyed.pif.panelKey ≠ false ∧ up.pif.panelKey ≠ true ∧
      (({ keyed with pif := { keyed.pif with position := .build fun _ => .off, held := .build fun _ => some .shut } } :
        State).pif.held.get .z1).isSome = true := ⟨plain_of rfl rfl, by decide +kernel⟩

theorem witness_KeyAndLampTestAreTaken : up.Plain := up_plain

theorem witness_SamplesDriveTheChannel :
    let a := fun n => channelWith fun r => { r with condition := .active, outRun := n }
    let f := fun n => channelWith fun r => { r with condition := .fault, inRun := n }
    let i := fun held n m => channelWith fun r =>
      { r with condition := .inhibited, faultHeld := held, outRun := n, inRun := m }
    ((a 0).Plain ∧ (a 0).nextInScan = some .c1 ∧ ((a 0).cfg.channels.channel.get .c1).zone = some .z1 ∧
      ((a 0).channel .c1).condition = .active ∧ ((a 1).channel .c1).outRun < 2 ∧ 2 ≤ ((a 2).channel .c1).outRun) ∧
    (concentration 2500 160 = some 0 ∧ concentration 2500 127 = none) ∧
    ((f 0).Plain ∧ (f 0).nextInScan = some .c1 ∧ ((f 1).channel .c1).condition = .fault ∧
      ((f 1).channel .c1).inRun < 2 ∧ 2 ≤ ((f 2).channel .c1).inRun) ∧
    ((i false 2 0).Plain ∧ (i false 2 0).nextInScan = some .c1 ∧ ((i false 2 0).channel .c1).condition = .inhibited ∧
      ((i false 1 0).channel .c1).outRun < 2 ∧ 2 ≤ ((i false 2 0).channel .c1).outRun) ∧
    ((i true 0 2).nextInScan = some .c1 ∧ ((i true 0 1).channel .c1).inRun < 2 ∧ 2 ≤ ((i true 0 2).channel .c1).inRun) ∧
    ((a 0).nextInScan ≠ some .c2 ∧ (up.channel .c1).condition = .unused) :=
  ⟨⟨plain_of rfl rfl, by decide +kernel⟩, by decide, ⟨plain_of rfl rfl, by decide +kernel⟩,
    ⟨plain_of rfl rfl, by decide +kernel⟩, by decide +kernel, by decide +kernel⟩

theorem witness_GasClaimFollowsTheChannels :
    claimOf .gas (up.plant.zones.get .z1).claims = (up.fev.zones.get .z1).gas.map gasClaim ∧
      up.zoneInA2 .z1 = false ∧ up.gasDemand .z1 = 0 ∧ (up.fev.zones.get .z1).gas = none := by decide +kernel

/-- `up` with C1 ACTIVE on a primed ring, its evaluation `e`, and the GAS record `g` of Z1. -/
def gassed (e : ChannelEval) (g : ZoneEval) : State :=
  ((channelWith fun r => { r with condition := .active, ring := some ⟨500, 500, 500, 500⟩, average := 500 }).setEval .c1
    e).setZoneEval .z1 g

/-- Z1 with C1 in A2, with a demand below A2, and with a claim whose run-on runs, starts and has no time. -/
theorem witness_GasClaimFollowsTheChannels_cases :
    let standing : ZoneEval := { gas := some ⟨3, 20⟩, runOn := none }
    (gassed { ChannelEval.blank with alarm := .a2 } .blank).zoneInA2 .z1 = true ∧
      (0 < (gassed { ChannelEval.blank with demand := 40 } .blank).gasDemand .z1 ∧
        (gassed { ChannelEval.blank with demand := 40 } .blank).zoneInA2 .z1 = false) ∧
      ((gassed .blank standing).gasDemand .z1 = 0 ∧ ((gassed .blank standing).fev.zones.get .z1).runOn = none ∧
        0 < ((gassed .blank standing).cfg.channels.zone.get .z1).runOn) ∧
      ((gassed .blank { standing with runOn := some 7 }).fev.zones.get .z1).runOn = some 7 ∧
      (channelWith fun r => { r with condition := .fault }).gasDemand .z1 =
        (up.cfg.channels.zone.get .z1).faultDemand := by decide +kernel

/-- C1's factory settings: a demand at V_start below S, of 100 from A2, and in between. -/
theorem witness_GasClaimFollowsTheChannels_demand :
    let x := defaultChannel .c1
    let e : ChannelEval := { ChannelEval.blank with venting := true }
    x.start < x.alarm2 ∧ ((e.evaluate x 20 240).venting = true ∧ 240 < x.start) ∧
      (ChannelEval.blank.evaluate x 20 0).venting = false ∧ x.alarm2 ≤ 1000 ∧ (x.start ≤ 400 ∧ 400 < x.alarm2) := by
  decide

theorem witness_DelaysAndRunOnsExpire :
    let s := (up.setEval .c1 { ChannelEval.blank with alarm := .a1Pending, delay := some 0 }).setZoneEval .z1
      { gas := some ⟨3, 20⟩, runOn := some 0 }
    s.Plain ∧ (s.eval .c1).alarm = .a1Pending ∧ (s.eval .c1).delay = some 0 ∧
      (s.fev.zones.get .z1).runOn = some 0 ∧ s.zoneInA2 .z1 = false ∧ s.gasDemand .z1 = 0 ∧
      (s.fev.zones.get .z1).gas.isSome = true :=
  ⟨plain_of rfl rfl, rfl, rfl, rfl, by decide +kernel, by decide +kernel, rfl⟩

/-- `up` with C1 ACTIVE and these entries in the inhibit list. -/
def inhibited (l : List Inhibit) : State :=
  (channelWith fun r => { r with condition := .active }).setInhibits l

theorem witness_InhibitTakesAChannelOut :
    (inhibited []).Addressed ∧ (1#8).toNat = Channel.c1.number ∧ (up.channel .c1).condition = .unused ∧
      ((inhibited []).channel .c1).condition ≠ .unused ∧ (inhibited []).listed .c1 = false ∧
      (inhibited [⟨.c1, 5⟩]).listed .c1 = true ∧
      4 ≤ (inhibited [⟨.c2, 5⟩, ⟨.c3, 5⟩, ⟨.c4, 5⟩, ⟨.c5, 5⟩]).scn.inhibits.length ∧
      (inhibited []).scn.inhibits.length < 4 := ⟨addressed_of rfl rfl rfl, by decide +kernel⟩

theorem witness_InhibitsEnd :
    (1#8).toNat = Channel.c1.number ∧ ((inhibited []).cfg.channels.channel.get .c1).zone = some .z1 ∧
      (inhibited []).Addressed ∧ (inhibited []).listed .c1 = false ∧ (inhibited [⟨.c1, 0⟩]).listed .c1 = true ∧
      (inhibited [⟨.c1, 0⟩]).Plain ∧ (⟨.c1, 0⟩ : Inhibit) ∈ (inhibited [⟨.c1, 0⟩]).scn.inhibits :=
  ⟨rfl, rfl, addressed_of rfl rfl rfl, rfl, rfl, plain_of rfl rfl, List.mem_singleton.mpr rfl⟩

theorem witness_SwitchesAndTravelMoveTheDamper :
    let s := upWith fun p => { p with dampers := p.dampers.set .z1 { Damper.blank with state := .opening, timer := some 0 } }
    s.Plain ∧ (s.plant.dampers.get .z1).level .openEnd ≠ true ∧ (s.plant.dampers.get .z1).travelling = true ∧
      (s.plant.dampers.get .z1).timer = some 0 := ⟨plain_of rfl rfl, by decide +kernel⟩

theorem witness_DampersObeyNewCommands :
    let d : Damper := { Damper.blank with closedSwitch := true }
    d.commandOpen ≠ true ∧ d.reading ≠ .disagree ∧ d.reading ≠ .atOpen ∧
      ({ d with openSwitch := true, closedSwitch := false } : Damper).reading = .atOpen ∧
      ({ d with state := .fault, openSwitch := true } : Damper).reading = .disagree := by decide

/-- `up` outside a supply hold, with F1 at the head of the start queue as a FIRE entry. -/
def headed : State := upWith fun p =>
  let q := p.setFan .f1 { p.fan .f1 with state := .queued, fire := true, target := 100 }
  { q with fsq := { q.fsq with queue := [⟨.f1, true, 0⟩], nextArrival := 1, hold := false } }

theorem witness_QueueHeadIsLaunched :
    headed.Plain ∧ headed.plant.QueueOk ∧ headed.plant.fsq.queue = [⟨.f1, true, 0⟩] ∧ headed.plant.fsq.spacing = none ∧
      headed.plant.fsq.hold = false ∧ (∀ f, (headed.plant.fan f).state ≠ .starting) ∧
      (headed.plant.fan .f1).running = false ∧ (headed.plant.fan .f1).fire = true := by
  refine ⟨plain_of rfl rfl, ⟨fun e he => ?_, List.nodup_singleton _, List.nodup_singleton _, fun f hf => ?_,
    List.pairwise_singleton .., (fun x hx => nomatch hx)⟩, rfl, rfl, rfl, fun f => ?_, rfl, rfl⟩
  · rw [List.mem_singleton.mp he]; exact ⟨rfl, by decide⟩
  · cases f <;> first | exact List.mem_singleton.mpr rfl | cases hf
  · cases f <;> decide +kernel

/-- The spacing about to stop, and a staged entry of F1. -/
theorem witness_QueueHeadIsLaunched_ramp :
    let q := { headed.plant with fsq := { headed.plant.fsq with spacing := some 1, staged := some ⟨.f1, 220⟩ } }
    q.fsq.spacing = some 1 ∧ (1 : Nat) ≤ 1 ∧ q.fsq.staged ≠ none ∧ (headed.plant.fan .f1).driveFault = false :=
  ⟨rfl, by decide, by decide, rfl⟩

/-- Grants and the re-test: an empty queue, a queue of F1 with arrivals below the next, and F1 staged as a NORMAL entry
that has become FIRE, and that does not fit. -/
theorem witness_QueueHeadIsLaunched_grants :
    (up.plant.fan .f1).state = .off ∧ headed.plant.fsq.queue.Pairwise (fun a b => a.ahead b = true) ∧
      (∀ e ∈ headed.plant.fsq.queue, e.arrival < headed.plant.fsq.nextArrival) ∧
      (headed.plant.fan .f1).state = .queued ∧
      (let p : Plant := { headed.plant with fsq := { headed.plant.fsq with
        queue := [⟨.f1, false, 0⟩], staged := some ⟨.f1, 1⟩ } }
       (retest factory (reclass p)).fsq.queue = [⟨.f1, true, 0⟩] ∧
        (retest factory (reclass (p.setFan .f1 { p.fan .f1 with fire := false }))).fsq.queue = [⟨.f1, false, 0⟩] ∧
        p.fsq.budget < power (factory.fans.rated.get .f1) (p.fan .f1).target) :=
  ⟨rfl, by decide +kernel, by decide +kernel, rfl, by decide +kernel⟩

theorem witness_StartsAreProved :
    (fanWith fun r => { r with state := .starting, run := true }).Plain ∧
      ((fanWith fun r => { r with state := .starting, run := true }).plant.fan .f1).running = false ∧
      ((fanWith fun r => { r with state := .proving, run := true }).plant.fan .f1).airflow = false :=
  ⟨fanWith_plain _, rfl, rfl⟩

theorem witness_QuietFanEvents :
    (fanWith fun r => { r with running := true }).Plain ∧
      ((fanWith fun r => { r with running := true }).plant.fan .f1).level .running = true ∧
      (up.plant.fan .f1).driveFault = false ∧ (up.plant.fan .f1).state.inService = false ∧
      ((fanWith fun r => { r with state := .stopping, timer := some 0 }).plant.fan .f1).state = .stopping ∧
      ((fanWith fun r => { r with state := .stopping, timer := some 0 }).plant.fan .f1).timer = some 0 :=
  ⟨fanWith_plain _, rfl, rfl, rfl, rfl, rfl⟩

theorem witness_FailuresTripTheFan :
    (failing false 0).Plain ∧ (failing false 0).plant.QueueOk ∧
      (failing false 0).Fails (.runTimeout .f1) .f1 .runTimeout ∧ ((failing false 0).plant.fan .f1).fire = false ∧
      2 ≤ ((failing true 2).plant.fan .f1).attempts :=
  ⟨fanWith_plain _, fanWith_queue _ (by decide), .inl ⟨rfl, rfl, rfl, rfl⟩, rfl, by decide +kernel⟩

theorem witness_FireFansRetryTheirStart :
    (failing true 1).Plain ∧ (failing true 1).Fails (.runTimeout .f1) .f1 .runTimeout ∧
      ((failing true 1).plant.fan .f1).fire = true ∧ ((failing true 1).plant.fan .f1).attempts < 2 :=
  ⟨fanWith_plain _, .inl ⟨rfl, rfl, rfl, rfl⟩, rfl, by decide +kernel⟩

theorem witness_FireFansRetryTheirStart_override : waiting.plant.OverrideOk ∧ runs waiting = true := by
  refine ⟨fun f => ?_, waiting_runs⟩
  cases f <;> rfl

/-- The mains plant with F1 RUNNING under fire override and its drive fault made, whose zone is now exhausted for the BMS
alone. -/
def burning : Plant :=
  let p := (dutied onMains).setFan .f1 { FanRec.blank with
    state := .running, run := true, fire := true, fireOverride := true, driveFault := true }
  { p with
    fsq := { p.fsq with hold := false }
    gal := { p.gal with budget := 2000 }
    zones := p.zones.set .z1 { p.zones.get .z1 with result := resultOf [bmsClaim (.exhaust 20)] }
    dampers := p.dampers.set .z1 { Damper.blank with state := .opened, commandOpen := true } }

theorem witness_FireFansRetryTheirStart_uncovered :
    burning.QueueOk ∧ burning.HoldOk ∧ (burning.fan .f1).state.inService = true ∧
      (burning.fan .f1).fireOverride = true ∧ (burning.fan .f1).driveFault = true ∧
      0 < ((allocate factory burning).grants.get .f1).target ∧
      ((allocate factory burning).grants.get .f1).fire = false := by
  refine ⟨⟨(fun e he => nomatch he), List.nodup_nil, List.nodup_nil, fun f hf => ?_, List.Pairwise.nil,
    (fun x hx => nomatch hx)⟩, ⟨fun f => ?_, rfl, (fun h => nomatch h), (fun h => nomatch h)⟩, rfl, rfl, rfl,
    by decide +kernel, by decide +kernel⟩
  · cases f <;> cases hf
  · cases f <;> rfl

/-- A fan that joins a queue in order, behind arrivals below its own. -/
theorem witness_FireFansRetryTheirStart_join :
    (headed.plant.fsq.queue.Pairwise fun a b => a.ahead b = true) ∧
      ∀ e ∈ headed.plant.fsq.queue, e.arrival < headed.plant.fsq.nextArrival := by decide +kernel

theorem witness_RampMovesOutputsTowardTargets :
    up.Plain ∧ up.plant.fsq.queue = [] ∧ up.plant.fsq.staged = none := ⟨up_plain, rfl, rfl⟩

/-- `up` with a supply record. -/
def supplied (x : Spm) (hold : Bool) : State :=
  upWith fun p => { p with spm := x, fsq := { p.fsq with hold := hold } }

theorem witness_LostSupplyDropsEveryFan :
    let s := supplied ⟨true, false, .mains, none⟩ false
    s.Plain ∧ decodeSupply (s.plant.spm.setLevel .generatorOnline true).mainsHealthy true = s.plant.spm.state ∧
      decodeSupply (s.plant.spm.setLevel .mainsHealthy false).mainsHealthy s.plant.spm.generatorOnline = .transfer ∧
      s.plant.spm.state ≠ .transfer := ⟨plain_of rfl rfl, by decide +kernel⟩

theorem witness_ReturnedSupplySettles :
    (let s := supplied ⟨false, false, .transfer, none⟩ true
     s.Plain ∧ s.plant.HoldOk ∧ decodeSupply true false ≠ .transfer ∧ decodeSupply true false ≠ s.plant.spm.state) ∧
    (let s := supplied ⟨false, true, .generator, none⟩ false
     s.Plain ∧ s.plant.HoldOk ∧ decodeSupply true true ≠ s.plant.spm.state) ∧
    (let s := supplied ⟨true, false, .mains, some 0⟩ true
     s.Plain ∧ s.plant.spm.settle = some 0 ∧ s.plant.spm.state ≠ .transfer) := by
  refine ⟨⟨plain_of rfl rfl, ⟨fun f => ?_, rfl, (fun h => nomatch h), fun _ => ⟨rfl, fun f => ?_⟩⟩, by decide, by decide +kernel⟩,
    ⟨plain_of rfl rfl, ⟨fun f => ?_, rfl, (fun h => nomatch h), (fun h => nomatch h)⟩, by decide +kernel⟩,
    ⟨plain_of rfl rfl, rfl, by decide +kernel⟩⟩ <;> cases f <;> rfl

end Sys2Proof.Tests
end

/-! The evaluation of a channel's reading: the venting flag and the alarm states A1 and A2, row by row of R55 and R59,
and the statements about them. -/

namespace Sys2Proof.Machine

/-! ## The parts of an evaluated record -/

@[simp] theorem ChannelEval.evaluate_venting (x : ChannelSetting) (v c : Nat) (e : ChannelEval) :
    (e.evaluate x v c).venting = ventingAfter x c e.venting := rfl

@[simp] theorem ChannelEval.evaluate_alarm (x : ChannelSetting) (v c : Nat) (e : ChannelEval) :
    (e.evaluate x v c).alarm = (alarmAfter x c e).1 := rfl

@[simp] theorem ChannelEval.evaluate_delay (x : ChannelSetting) (v c : Nat) (e : ChannelEval) :
    (e.evaluate x v c).delay = (alarmAfter x c e).2 := rfl

/-! ## The venting flag (R55) -/

section Venting
variable {x : ChannelSetting} {c : Nat} (flag : Bool)

theorem ventingAfter_of_start_le (h : x.start ≤ c) : ventingAfter x c flag = true := if_pos h

theorem ventingAfter_of_lt_band (h : c < x.start - x.hysteresis) : ventingAfter x c flag = false := by
  have below : ¬ x.start ≤ c := by omega
  rw [ventingAfter, if_neg below, if_pos h]

theorem ventingAfter_of_mem_band (low : x.start - x.hysteresis ≤ c) (high : c < x.start) :
    ventingAfter x c flag = flag := by
  rw [ventingAfter, if_neg high.not_ge, if_neg low.not_gt]

end Venting

/-! ## The alarm states A1 and A2 (R59) -/

section Alarmed
variable {x : ChannelSetting} {c : Nat} {e : ChannelEval}

theorem alarmAfter_of_a1 (h : e.alarm = .a1) :
    alarmAfter x c e =
      if x.alarm2 ≤ c then (.a2, none)
      else if x.alarm1 - x.hysteresis ≤ c then (.a1, none) else (.normal, none) := by
  simp only [alarmAfter, h]

/-- A2 is left only at A2 − H; below that the rows are those of A1. -/
theorem alarmAfter_of_a2 (h : e.alarm = .a2) :
    alarmAfter x c e =
      if x.alarm2 - x.hysteresis ≤ c then (.a2, none)
      else if x.alarm1 - x.hysteresis ≤ c then (.a1, none) else (.normal, none) := by
  simp only [alarmAfter, h]

/-- Neither A1 nor A2 goes to A1-PENDING, the one state with a delay. -/
theorem alarmAfter_delay_of_alarmed (h : e.alarm = .a1 ∨ e.alarm = .a2) : (alarmAfter x c e).2 = none := by
  rcases h with h | h
  · rw [alarmAfter_of_a1 h]; split_ifs <;> rfl
  · rw [alarmAfter_of_a2 h]; split_ifs <;> rfl

theorem alarmAfter_of_a1_high (h : e.alarm = .a1) (hc : x.alarm2 ≤ c) : alarmAfter x c e = (.a2, none) := by
  rw [alarmAfter_of_a1 h, if_pos hc]

theorem alarmAfter_of_a1_band (h : e.alarm = .a1) (low : x.alarm1 - x.hysteresis ≤ c) (high : c < x.alarm2) :
    alarmAfter x c e = (.a1, none) := by
  rw [alarmAfter_of_a1 h, if_neg high.not_ge, if_pos low]

theorem alarmAfter_of_a2_high (h : e.alarm = .a2) (hc : x.alarm2 - x.hysteresis ≤ c) :
    alarmAfter x c e = (.a2, none) := by
  rw [alarmAfter_of_a2 h, if_pos hc]

theorem alarmAfter_of_a2_band (h : e.alarm = .a2) (low : x.alarm1 - x.hysteresis ≤ c)
    (high : c < x.alarm2 - x.hysteresis) : alarmAfter x c e = (.a1, none) := by
  rw [alarmAfter_of_a2 h, if_neg high.not_ge, if_pos low]

/-- With A1 < A2 a reading below A1 − H is below A2 and A2 − H as well, so both alarms fall straight to NORMAL. -/
theorem alarmAfter_of_alarmed_low (h : e.alarm = .a1 ∨ e.alarm = .a2) (order : x.alarm1 < x.alarm2)
    (hc : c < x.alarm1 - x.hysteresis) : alarmAfter x c e = (.normal, none) := by
  have belowBand : ¬ x.alarm2 - x.hysteresis ≤ c := by omega
  have belowHigh : ¬ x.alarm2 ≤ c := by omega
  rcases h with h | h
  · rw [alarmAfter_of_a1 h, if_neg belowHigh, if_neg hc.not_ge]
  · rw [alarmAfter_of_a2 h, if_neg belowBand, if_neg hc.not_ge]

end Alarmed

/-! ## The statements -/

/-- Settles O14, by the three ranges of the reading. -/
theorem ventingFlagHasHysteresis : Obligations.VentingFlagHasHysteresis := by
  unfold Obligations.VentingFlagHasHysteresis
  intro x v c e
  simp only [ChannelEval.evaluate_venting]
  exact ⟨ventingAfter_of_start_le _, fun _ below => ventingAfter_of_lt_band _ below, ventingAfter_of_mem_band _⟩

/-- Settles O16, by the rows of R59's table. -/
theorem alarmedChannelFallsByHysteresis : Obligations.AlarmedChannelFallsByHysteresis := by
  unfold Obligations.AlarmedChannelFallsByHysteresis
  intro x v c e order _
  simp only [ChannelEval.evaluate_alarm, ChannelEval.evaluate_delay]
  refine ⟨fun inA1 => ⟨alarmAfter_delay_of_alarmed (.inl inA1), fun high => ?_, fun low high => ?_, fun below => ?_⟩,
    fun inA2 => ⟨alarmAfter_delay_of_alarmed (.inr inA2), fun high => ?_, fun low high => ?_, fun below => ?_⟩⟩
  · rw [alarmAfter_of_a1_high inA1 high]
  · rw [alarmAfter_of_a1_band inA1 low high]
  · rw [alarmAfter_of_alarmed_low (.inl inA1) order below]
  · rw [alarmAfter_of_a2_high inA2 high]
  · rw [alarmAfter_of_a2_band inA2 low high]
  · rw [alarmAfter_of_alarmed_low (.inr inA2) order below]

end Sys2Proof.Machine

/-! The power of a fan and of a set of fans (R122), from the bounds of a division rounded up and the sum that `total`
takes, and the statement about them. -/

namespace Sys2Proof.Machine

/-! ## Division rounded up -/

section CeilDiv
variable (a : Nat) {b : Nat}

theorem le_ceilDiv_mul (hb : 0 < b) : a ≤ ceilDiv a b * b := by
  have next : a + (b - 1) < (a + (b - 1)) / b * b + b := Nat.lt_div_mul_add hb
  rw [ceilDiv]
  omega

theorem ceilDiv_mul_lt (hb : 0 < b) : ceilDiv a b * b < a + b := by
  have floor : (a + (b - 1)) / b * b ≤ a + (b - 1) := Nat.div_mul_le_self _ _
  rw [ceilDiv]
  omega

/-- An exact quotient is not rounded. -/
theorem ceilDiv_mul_self (hb : 0 < b) : ceilDiv (a * b) b = a := by
  have least : a ≤ ceilDiv (a * b) b := Nat.le_of_mul_le_mul_right (le_ceilDiv_mul (a * b) hb) hb
  have most : ceilDiv (a * b) b < a + 1 :=
    Nat.lt_of_mul_lt_mul_right ((ceilDiv_mul_lt (a * b) hb).trans_eq (Nat.succ_mul a b).symm)
  exact Nat.le_antisymm (Nat.le_of_lt_succ most) least

end CeilDiv

/-! ## The sum of a list -/

theorem total_eq_sum (ns : List Nat) : total ns = ns.sum := by
  induction ns with
  | nil => rfl
  | cons n ns ih => rw [total, ih, List.sum_cons]

/-! ## The power of a fan (R122) -/

theorem power_eq_ceilDiv_cube (P v : Nat) : power P v = ceilDiv (P * v ^ 3) 1000000 := by
  rw [power, pow_three']

@[simp] theorem power_zero (P : Nat) : power P 0 = 0 := by
  rw [power_eq_ceilDiv_cube, show P * 0 ^ 3 = 0 * 1000000 by simp, ceilDiv_mul_self 0 (by decide)]

/-- At full speed the cube is the divisor. -/
@[simp] theorem power_hundred (P : Nat) : power P 100 = P := by
  rw [power_eq_ceilDiv_cube, show 100 ^ 3 = 1000000 by rfl, ceilDiv_mul_self P (by decide)]

/-- The powers are rounded up before they are added. -/
theorem groupPower_eq_sum (cfg : Settings) (r : GroupRec) (n v : Nat) :
    groupPower cfg r n v = ((r.chosen.take n).map fun c => power (cfg.fans.rated.get c.fan) v).sum := by
  rw [groupPower, total_eq_sum]

/-- Settles O18, by the bounds of the division rounded up, its exact cases and `total` as a sum. -/
theorem fanPowerIsRoundedUp : Obligations.FanPowerIsRoundedUp := by
  unfold Obligations.FanPowerIsRoundedUp
  refine ⟨fun P v => ?_, fun P => ⟨power_zero P, power_hundred P⟩, groupPower_eq_sum⟩
  rw [power_eq_ceilDiv_cube]
  exact ⟨le_ceilDiv_mul _ (by decide), ceilDiv_mul_lt _ (by decide)⟩

end Sys2Proof.Machine

/-! Steps and commands: what a step does with the queue, what a part without power takes, and the rules of the plant
that every step keeps because every move of the plant keeps them. -/

namespace Sys2Proof.Machine

/-! ## Steps -/

theorem step_cons {s : State} {c : Instr} {cs : List Instr} (h : s.pending = c :: cs) :
    step s = exec c { s with pending := cs } := by
  unfold step
  rw [h]

theorem step_nil {s : State} (h : s.pending = []) : step s = .next s := by
  unfold step
  rw [h]

/-- A step idles, or carries out a command on the state with another queue. -/
theorem step_cases {s t : State} (h : step s = .next t) :
    t = s ∨ ∃ c cs, exec c { s with pending := cs } = .next t := by
  cases queue : s.pending with
  | nil =>
    rw [step_nil queue] at h
    cases h
    exact .inl rfl
  | cons c cs => exact .inr ⟨c, cs, step_cons queue ▸ h⟩

theorem step_reached {s t : State} (h : step s = .next t) : s.Reached t := by
  obtain rfl | ⟨c, cs, h⟩ := step_cases h
  · exact .went .refl
  · exact .of_plant (u := { s with pending := cs }) rfl (exec_reached c _ t h)

/-! ## A part without power -/

theorem State.take_unpowered {s : State} (h : s.mode = .unpowered) (k : Byte) (p : List Byte) : s.take k p = s := by
  unfold State.take State.answer
  rw [h]
  split <;> split <;> rfl

theorem State.answer_unpowered {s : State} (h : s.mode = .unpowered) (k : Byte) (x : Handler) : s.answer k x = s := by
  unfold State.answer
  rw [h]
  split <;> rfl

theorem State.inService_unpowered {s : State} (h : s.mode = .unpowered) (f : State → State) : s.inService f = s :=
  State.inService_other (by rw [h]; decide)

/-- A part without power takes no command but POWER_ON_RESET and POWER_LOSS (log entry 21). -/
theorem exec_unpowered {s : State} (h : s.mode = .unpowered) {c : Instr} (on : ∀ straps, c ≠ .powerOnReset straps)
    (off : c ≠ .powerLoss) : exec c s = .next s := by
  have answer := State.answer_unpowered h
  have inService := State.inService_unpowered h
  cases c
  case powerOnReset straps => exact absurd rfl (on straps)
  case powerLoss => exact absurd rfl off
  case loadingComplete x => simp [exec, execLoadingComplete, h]
  case bFrameComplete bs => simp [exec, execBFrameComplete, h]
  case interbyteGapTimeout l => simp [exec, execInterbyteGapTimeout, h]
  case bFrameTaken => simp [exec, execBFrameTaken, h]
  case fFrameReceived bs => simp [exec, execFFrameReceived, h]
  case characterFramingError l => simp [exec, execCharacterFramingError, h]
  case leadByte l => simp [exec, execLeadByte, h]
  case minuteBoundary => simp [exec, execMinuteBoundary, h]
  case clockSecond => simp [exec, execClockSecond, h]
  case unknownRequest k p => exact congrArg _ (State.take_unpowered h k p)
  all_goals first
    | exact congrArg _ (answer _ _)
    | exact congrArg _ (inService _)

/-- A step that leaves the part with power came from a part with power, or is the power-on reset. -/
theorem step_powered {s t : State} (h : step s = .next t) (powered : t.mode ≠ .unpowered) :
    s.mode ≠ .unpowered ∨ ∃ (straps : Nat) (cs : List Instr), t = ({ s with pending := cs }).powerOn straps := by
  by_cases mode : s.mode = .unpowered
  · obtain rfl | ⟨c, cs, h⟩ := step_cases h
    · exact absurd mode powered
    · by_cases on : ∃ straps, c = .powerOnReset straps
      · obtain ⟨straps, rfl⟩ := on
        cases h
        exact .inr ⟨_, _, rfl⟩
      · by_cases off : c = .powerLoss
        · subst off
          cases h
          exact absurd rfl powered
        · rw [exec_unpowered (s := { s with pending := cs }) mode (fun straps e => on ⟨straps, e⟩) off] at h
          cases h
          exact absurd mode powered
  · exact .inl mode

/-! ## The plants with which the part starts -/

theorem ListRanked.nil : ListRanked [] := ⟨.nil, .nil⟩

theorem Plant.TableOk.of_blank {p : Plant} (zones : ∀ z, p.zones.get z = .blank)
    (order : (p.fireOrder.map FireEntry.zone).Nodup) : p.TableOk :=
  ⟨fun z => by rw [zones]; exact ⟨.nil, rfl⟩, order⟩

theorem Plant.blank_commandsFollow : Plant.blank.CommandsFollow := fun z => by
  simp [Plant.blank, Damper.blank, ZoneRec.blank, ZoneResult.blank]

theorem Plant.QueueOk.of_empty {p : Plant} (queue : p.fsq.queue = []) (staged : p.fsq.staged = none)
    (state : ∀ f, (p.fan f).state ≠ .queued) : p.QueueOk := by
  refine ⟨?_, ?_, ?_, fun f h => absurd h (state f), ?_, ?_⟩ <;> simp [queue, staged]

theorem Plant.OneStart.of_none {p : Plant} (state : ∀ f, (p.fan f).state ≠ .starting) : p.OneStart :=
  fun f _ h => absurd h (state f)

@[simp] theorem Plant.blank_fan (f : Fan) : Plant.blank.fan f = .blank := by simp [Plant.fan, Plant.blank, Fsq.blank]

theorem Plant.blank_holdOk : Plant.blank.HoldOk := by
  refine ⟨fun f => by simp [FanRec.blank, FanState.inService], rfl, by simp [Plant.blank, Spm.blank], fun _ => ⟨rfl, ?_⟩⟩
  simp [FanRec.blank]

section Start
variable (cfg : Settings) (fireChange defaulted : Bool) (x : Lines)

@[simp] theorem Plant.start_zone (z : Zone) : (Plant.start cfg fireChange defaulted x).zones.get z = .blank := by
  simp [Plant.start, Plant.blank]

@[simp] theorem Plant.start_fireOrder : (Plant.start cfg fireChange defaulted x).fireOrder = [] := by
  simp [Plant.start, Plant.blank]

@[simp] theorem Plant.start_damper (z : Zone) : (Plant.start cfg fireChange defaulted x).dampers.get z =
    Damper.start cfg.timers.travel (x.openSwitch.get z) (x.closedSwitch.get z) := by
  simp [Plant.start]

@[simp] theorem Plant.start_fan (f : Fan) : (Plant.start cfg fireChange defaulted x).fan f =
    FanRec.start cfg.timers.coast (x.running.get f) (x.airflow.get f) (x.driveFault.get f) := by
  simp [Plant.start, Plant.fan]

@[simp] theorem Plant.start_spm : (Plant.start cfg fireChange defaulted x).spm =
    Spm.start cfg.timers.settle x.mainsHealthy x.generatorOnline := by
  simp [Plant.start]

@[simp] theorem Plant.start_gal : (Plant.start cfg fireChange defaulted x).gal =
    { Gal.blank with groups := .build fun g => { GroupRec.blank with duty := cfg.groupFans g } } := by
  simp [Plant.start]

@[simp] theorem Plant.start_queue : (Plant.start cfg fireChange defaulted x).fsq.queue = [] := by
  simp [Plant.start, Fsq.blank]

@[simp] theorem Plant.start_staged : (Plant.start cfg fireChange defaulted x).fsq.staged = none := by
  simp [Plant.start, Fsq.blank]

@[simp] theorem Plant.start_hold : (Plant.start cfg fireChange defaulted x).fsq.hold = true := by
  simp [Plant.start, Fsq.blank]

end Start

@[simp] theorem Damper.start_commandOpen (travel : Nat) (a b : Bool) : (Damper.start travel a b).commandOpen = false := by
  unfold Damper.start
  cases a <;> cases b <;> rfl

theorem FanRec.start_state (coast : Nat) (a b c : Bool) :
    (FanRec.start coast a b c).state = .stopping ∨ (FanRec.start coast a b c).state = .off := by
  cases a
  · exact .inr rfl
  · exact .inl rfl

@[simp] theorem FanRec.start_run (coast : Nat) (a b c : Bool) : (FanRec.start coast a b c).run = false := rfl

theorem FanRec.start_idle (coast : Nat) (a b c : Bool) : (FanRec.start coast a b c).state.inService = false := by
  rcases start_state coast a b c with h | h <;> rw [h] <;> rfl

theorem Plant.start_holdOk (cfg : Settings) (fireChange defaulted : Bool) (x : Lines) :
    (Plant.start cfg fireChange defaulted x).HoldOk := by
  refine ⟨fun f => by simp [FanRec.start_idle], ?_, ?_, fun _ => ⟨by simp, by simp⟩⟩
  · simp only [start_hold, Plant.supplyHold, start_spm, Spm.start]
    split <;> simp_all
  · simp only [start_spm, Spm.start]
    split <;> simp_all

/-! ## The statements -/

/-- Settles O1. -/
theorem stepRunsTheFrontCommand : Obligations.StepRunsTheFrontCommand := by
  unfold Obligations.StepRunsTheFrontCommand
  exact ⟨fun _ _ _ h => step_cons h, fun _ h => step_nil h⟩

theorem State.Reached.tableOk {s t : State} (r : s.Reached t) (h : s.plant.TableOk) : t.plant.TableOk := by
  cases r with
  | went chain => exact chain.keeps PlantMove.tableOk h
  | loading _ raised e =>
    rw [e]
    exact .of_blank (fun z => by simp [Plant.blank]) (by simp [Plant.blank])
  | began cfg a b x chain => exact chain.keeps PlantMove.tableOk (.of_blank (by simp) (by simp))
  | stopped _ zones order => exact .of_blank zones (order ▸ h.2)

/-- The demands taken from a list are those of the EXHAUST claims ahead of its first SHUT claim (R10, case 3). -/
theorem mem_demandsTaken {l : List Claim} {n : Nat} :
    n ∈ demandsTaken l ↔ ∃ i, (∃ e : Claim, l[i]? = some e ∧ e.kind = .exhaust n) ∧ ∀ y ∈ l.take i, y.kind ≠ .shut := by
  induction l with
  | nil => simp [demandsTaken]
  | cons c cs ih =>
    cases kind : c.kind with
    | shut =>
      simp only [demandsTaken, kind, List.not_mem_nil, false_iff]
      rintro ⟨i, ⟨e, he, hn⟩, ahead⟩
      cases i with
      | zero => simp_all
      | succ i => exact ahead c (by simp) kind
    | exhaust d =>
      simp only [demandsTaken, kind, List.mem_cons, ih]
      constructor
      · rintro (rfl | ⟨i, ⟨e, he, hn⟩, ahead⟩)
        · exact ⟨0, ⟨c, rfl, kind⟩, by simp⟩
        · exact ⟨i + 1, ⟨e, by simpa using he, hn⟩, by simpa [kind] using ahead⟩
      · rintro ⟨i, ⟨e, he, hn⟩, ahead⟩
        cases i with
        | zero =>
          obtain rfl : c = e := by simpa using he
          rw [kind] at hn
          exact .inl (by cases hn; rfl)
        | succ i => exact .inr ⟨i, ⟨e, by simpa using he, hn⟩, fun y hy => ahead y (by simp [hy])⟩

theorem le_largest {l : List Nat} {n : Nat} (h : n ∈ l) : n ≤ largest l := by
  induction l with
  | nil => cases h
  | cons a l ih =>
    rcases List.mem_cons.mp h with rfl | h
    · exact Nat.le_max_left ..
    · exact Nat.le_trans (ih h) (Nat.le_max_right ..)

theorem largest_mem {l : List Nat} (h : l ≠ []) : largest l ∈ l := by
  induction l with
  | nil => exact absurd rfl h
  | cons a l ih =>
    by_cases hl : l = []
    · simp [hl, largest]
    · rcases Nat.le_total (largest l) a with le | le
      · simp [largest, Nat.max_eq_left le]
      · simp [largest, Nat.max_eq_right le, ih hl]

/-- Settles O6: every move of the plant keeps the claim table, and the demand of an EXHAUST head is the largest taken. -/
theorem claimTableStaysRanked : Obligations.ClaimTableStaysRanked := by
  unfold Obligations.ClaimTableStaysRanked
  refine ⟨fun s t h e => (step_reached e).tableOk h, rfl, fun c cs => ?_⟩
  cases kind : c.kind with
  | shut => simp [resultOf, kind]
  | exhaust d =>
    have head : d ∈ demandsTaken (c :: cs) := by simp [demandsTaken, kind]
    simp only [resultOf, kind, reduceCtorEq, false_implies, true_and]
    intro _ _
    refine ⟨fun i e he ahead n hn => le_largest ?_, ?_⟩
    · exact mem_demandsTaken.mpr ⟨i, ⟨e, he, hn⟩, ahead⟩
    · exact mem_demandsTaken.mp (largest_mem (List.ne_nil_of_mem head))

/-- Settles O7. -/
theorem damperCommandsFollowDirectives : Obligations.DamperCommandsFollowDirectives := by
  unfold Obligations.DamperCommandsFollowDirectives
  intro s t h e powered
  rcases step_powered e powered with mode | ⟨straps, cs, rfl⟩
  · cases step_reached e with
    | went chain => exact chain.keeps PlantMove.commandsFollow (h mode)
    | loading _ raised p =>
      rw [p]
      exact fun z => by simpa using Plant.blank_commandsFollow z
    | began cfg a b x chain =>
      exact chain.keeps PlantMove.commandsFollow fun z => by simp [ZoneRec.blank, ZoneResult.blank]
    | stopped off => exact absurd off powered
  · exact fun z => by simpa [State.powerOn, State.load] using Plant.blank_commandsFollow z

theorem State.Reached.queueOk {s t : State} (r : s.Reached t) (h : s.plant.QueueOk) : t.plant.QueueOk := by
  cases r with
  | went chain => exact chain.keeps PlantMove.queueOk h
  | loading _ raised e =>
    rw [e]
    exact .of_empty (by simp [Plant.blank, Fsq.blank]) (by simp [Plant.blank, Fsq.blank])
      fun f => by simp [Plant.fan, Plant.blank, Fsq.blank, FanRec.blank]
  | began cfg a b x chain =>
    refine chain.keeps PlantMove.queueOk (.of_empty (by simp) (by simp) fun f => ?_)
    rw [Plant.start_fan]
    rcases FanRec.start_state cfg.timers.coast (x.running.get f) (x.airflow.get f) (x.driveFault.get f) with h | h <;>
      rw [h] <;> decide
  | stopped _ _ _ queue staged off => exact .of_empty queue staged fun f => by rw [off]; decide

theorem State.Reached.oneStart {s t : State} (r : s.Reached t) (h : s.plant.OneStart) : t.plant.OneStart := by
  cases r with
  | went chain => exact chain.keeps PlantMove.oneStart h
  | loading _ raised e =>
    rw [e]
    exact .of_none fun f => by simp [Plant.fan, Plant.blank, Fsq.blank, FanRec.blank]
  | began cfg a b x chain =>
    refine chain.keeps PlantMove.oneStart (.of_none fun f => ?_)
    rw [Plant.start_fan]
    rcases FanRec.start_state cfg.timers.coast (x.running.get f) (x.airflow.get f) (x.driveFault.get f) with h | h <;>
      rw [h] <;> decide
  | stopped _ _ _ _ _ off => exact .of_none fun f => by rw [off]; decide

/-- Settles O9. -/
theorem startQueueHoldsTheQueuedFans : Obligations.StartQueueHoldsTheQueuedFans := by
  unfold Obligations.StartQueueHoldsTheQueuedFans
  exact ⟨fun _ _ h e => (step_reached e).queueOk h, fun _ _ h e => (step_reached e).oneStart h⟩

/-- Settles O10. -/
theorem supplyHoldStopsEveryFan : Obligations.SupplyHoldStopsEveryFan := by
  unfold Obligations.SupplyHoldStopsEveryFan
  intro s t h e powered
  have blank (raised : Bool) : (Plant.blank.raiseIf raised .fireChange).HoldOk := by
    cases raised <;> exact Plant.blank_holdOk
  rcases step_powered e powered with mode | ⟨straps, cs, rfl⟩
  · cases step_reached e with
    | went chain => exact chain.keeps PlantMove.holdOk (h mode)
    | loading _ raised p => exact p ▸ blank raised
    | began cfg a b x chain => exact chain.keeps PlantMove.holdOk (Plant.start_holdOk cfg a b x)
    | stopped off => exact absurd off powered
  · exact blank _

end Sys2Proof.Machine

/-! Requests and frames as bytes: what is read back from the kind and payload of a request (section 13.3) and from the
bytes of a frame (R192). -/

namespace Sys2Proof.Machine

/-! ## Two-byte values, high byte first -/

@[simp] theorem wordOf_hiByte_loByte (w : Word) : wordOf (hiByte w) (loByte w) = w := by
  rw [wordOf, hiByte, loByte, BitVec.extractLsb'_append_extractLsb'_eq_extractLsb' (by rfl)]
  exact BitVec.extractLsb'_eq_self

@[simp] theorem hiByte_wordOf (a b : Byte) : hiByte (wordOf a b) = a := by
  simp only [wordOf, hiByte]
  exact BitVec.extractLsb'_append_eq_left

@[simp] theorem loByte_wordOf (a b : Byte) : loByte (wordOf a b) = b := by
  simp only [wordOf, loByte]
  exact BitVec.extractLsb'_append_eq_right

theorem hiByte_eq (w : Word) : hiByte w = .ofNat 8 (w.toNat / 256) := by
  apply BitVec.eq_of_toNat_eq
  simp [hiByte, Nat.shiftRight_eq_div_pow]

theorem loByte_eq (w : Word) : loByte w = .ofNat 8 (w.toNat % 256) := by
  apply BitVec.eq_of_toNat_eq
  simp [loByte]

/-! ## Requests -/

theorem decodeRequest_kind_payload (r : Request) : decodeRequest r.kind r.payload = some r := by
  have words : ∀ w : Word, wordOf (hiByte w) (loByte w) = w := wordOf_hiByte_loByte
  cases r
  case setBudget w => exact congrArg (fun w => some (Request.setBudget w)) (words w)
  case setClock d m s => exact congrArg (fun m => some (Request.setClock d m s)) (words m)
  case inhibit c t => exact congrArg (fun t => some (Request.inhibit c t)) (words t)
  case writeItem i v => exact congrArg₂ (fun i v => some (Request.writeItem i v)) (words i) (words v)
  case readSetting b i => exact congrArg (fun i => some (Request.readSetting b i)) (words i)
  all_goals rfl

/-- No request has a kind above 49. -/
theorem decodeRequest_of_large {k : Byte} {n : Nat} (large : k.toNat = n + 50) (p : List Byte) :
    decodeRequest k p = none := by
  unfold decodeRequest
  rw [large]
  cases p <;> rfl

/-- The table of section 13.3 row by row: of each kind and each length of payload, what is read has that kind and
payload. -/
theorem kind_payload_of_decodeRequest {k : Byte} {p : List Byte} {r : Request} (h : decodeRequest k p = some r) :
    r.kind = k ∧ r.payload = p := by
  by_cases small : k.toNat < 50
  · have kind : k = BitVec.ofNat 8 k.toNat := by simp
    unfold decodeRequest at h
    generalize k.toNat = n at *
    subst kind
    rcases p with _ | ⟨a, _ | ⟨b, _ | ⟨c, _ | ⟨d, _ | ⟨e, p⟩⟩⟩⟩⟩
    all_goals
      interval_cases n
      all_goals cases h
      all_goals exact ⟨rfl, by simp [Request.payload]⟩
  · obtain ⟨n, large⟩ := Nat.exists_eq_add_of_le' (Nat.le_of_not_lt small)
    rw [decodeRequest_of_large large] at h
    cases h

/-- Settles O3. -/
theorem requestsReadBack : Obligations.RequestsReadBack := by
  unfold Obligations.RequestsReadBack
  refine ⟨decodeRequest_kind_payload, fun _ _ _ => kind_payload_of_decodeRequest, fun a b c v w => ?_⟩
  simp [Request.kind, Request.payload, hiByte_eq, loByte_eq]

/-! ## Frames -/

@[simp] theorem byte_toNat (n : Nat) : (byte n).toNat = n % 256 := by simp [byte]

theorem byte_eq_toNat (b : Byte) : byte b.toNat = b := by simp [byte]

@[simp] theorem word2_length (n : Nat) : (word2 n).length = 2 := rfl

theorem Frame.bytes_eq (f : Frame) : f.bytes = leadOctet :: (f.summed ++ word2 (checkOf f.summed)) := rfl

theorem parseFrame_summed (f : Frame) (h : f.payload.length ≤ 250) :
    parseFrame (f.summed ++ word2 (checkOf f.summed)) = some f := by
  have length : (byte f.payload.length).toNat = f.payload.length := by
    rw [byte_toNat]
    omega
  have short : ¬ Config.maxPayload < f.payload.length := Nat.not_lt.mpr h
  simp [parseFrame, Frame.summed, length, short]

/-- The bytes after the lead byte of a frame that is read are that frame's. -/
theorem bytes_of_parseFrame {bs : List Byte} {f : Frame} (h : parseFrame bs = some f) :
    f.payload.length ≤ 250 ∧ f.bytes = leadOctet :: bs := by
  unfold parseFrame at h
  split at h
  · rename_i address kind length rest
    split at h
    · cases h
    · rename_i long
      simp only [Option.ite_none_right_eq_some, Option.some.injEq] at h
      obtain ⟨⟨whole, check⟩, rfl⟩ := h
      have taken : (rest.take length.toNat).length = length.toNat := by
        rw [List.length_take]
        omega
      refine ⟨?_, ?_⟩
      · rw [taken]
        exact Nat.not_lt.mp long
      · rw [Frame.bytes_eq, ← check]
        simp [Frame.summed, taken, byte_eq_toNat]
  · cases h

theorem word2_check (bytes : List Byte) :
    word2 (checkOf bytes) = [.ofNat 8 ((65535 - (bytes.map BitVec.toNat).sum % 65536) / 256),
      .ofNat 8 ((65535 - (bytes.map BitVec.toNat).sum % 65536) % 256)] := by
  simp only [word2, checkOf, total_eq_sum, byte, List.cons.injEq, and_true, true_and]
  apply BitVec.eq_of_toNat_eq
  simp

/-- Settles O4. -/
theorem framesReadBack : Obligations.FramesReadBack := by
  unfold Obligations.FramesReadBack
  refine ⟨fun f short => ⟨?_, ?_⟩, fun bs f => bytes_of_parseFrame, fun f => ?_⟩
  · simp [Frame.bytes_eq, afterLead]
  · simpa [Frame.bytes_eq] using parseFrame_summed f short
  · rw [Frame.bytes_eq, word2_check]
    rfl

end Sys2Proof.Machine

/-! Readings of a channel below its alarms (R57, R58), and when a pull-out window is open and what it covers (R172,
R173). -/

namespace Sys2Proof.Machine

/-! ## NORMAL and A1-PENDING -/

section Pending
variable {x : ChannelSetting} {c : Nat} {e : ChannelEval}

theorem alarmAfter_of_normal (h : e.alarm = .normal) :
    alarmAfter x c e =
      if x.alarm2 ≤ c then (.a2, none)
      else if x.alarm1 ≤ c then (if x.alarmDelay = 0 then (.a1, none) else (.a1Pending, some x.alarmDelay))
      else (.normal, none) := by
  simp only [alarmAfter, h]

theorem alarmAfter_of_pending (h : e.alarm = .a1Pending) :
    alarmAfter x c e =
      if x.alarm2 ≤ c then (.a2, none)
      else if x.alarm1 - x.hysteresis ≤ c then (.a1Pending, e.delay) else (.normal, none) := by
  simp only [alarmAfter, h]

/-- A1-PENDING is entered from NORMAL alone, by a reading at or above A1. -/
theorem normal_of_entersPending (now : (alarmAfter x c e).1 = .a1Pending) (before : e.alarm ≠ .a1Pending) :
    e.alarm = .normal ∧ x.alarm1 ≤ c := by
  cases was : e.alarm with
  | normal =>
    rw [alarmAfter_of_normal was] at now
    split_ifs at now with high low
    exact ⟨rfl, low⟩
  | a1Pending => exact absurd was before
  | a1 =>
    rw [alarmAfter_of_a1 was] at now
    split_ifs at now
  | a2 =>
    rw [alarmAfter_of_a2 was] at now
    split_ifs at now

end Pending

/-- Settles O15. -/
theorem normalChannelMeetsItsThresholds : Obligations.NormalChannelMeetsItsThresholds := by
  unfold Obligations.NormalChannelMeetsItsThresholds
  intro x v c e
  simp only [ChannelEval.evaluate_alarm, ChannelEval.evaluate_delay]
  refine ⟨fun was => ?_, normal_of_entersPending, fun was => ?_⟩
  · rw [alarmAfter_of_normal was]
    refine ⟨fun high => ?_, fun mid low delay => ?_, fun mid low delay => ?_, fun below low => ?_⟩
    · rw [if_pos high]
    · rw [if_neg low.not_ge, if_pos mid, if_neg delay.ne']
      exact ⟨rfl, rfl⟩
    · rw [if_neg low.not_ge, if_pos mid, if_pos delay]
    · rw [if_neg low.not_ge, if_neg below.not_ge]
  · rw [alarmAfter_of_pending was]
    refine ⟨fun high => ?_, fun mid low => ?_, fun below low => ?_⟩
    · rw [if_pos high]
      exact ⟨rfl, rfl⟩
    · rw [if_neg low.not_ge, if_pos mid]
      exact ⟨rfl, rfl⟩
    · rw [if_neg low.not_ge, if_neg below.not_ge]
      exact ⟨rfl, rfl⟩

/-! ## Windows -/

theorem Window.openAt_of_eq {w : Window} (h : w.start = w.stop) (d m : Nat) : w.openAt d m = false := if_pos h

theorem Window.openAt_of_lt {w : Window} (h : w.start < w.stop) (d m : Nat) :
    w.openAt d m = true ↔ dayMaskHas w.days d = true ∧ w.start ≤ m ∧ m < w.stop := by
  simp [openAt, h, h.ne]

/-- A window over midnight belongs to the day on which it starts. -/
theorem Window.openAt_of_gt {w : Window} (h : w.stop < w.start) (d m : Nat) :
    w.openAt d m = true ↔
      (dayMaskHas w.days d = true ∧ w.start ≤ m) ∨ (dayMaskHas w.days (dayBefore d) = true ∧ m < w.stop) := by
  simp [openAt, h.ne', h.not_gt]

theorem mem_openWindows {windows : PerWindow Window} {clock : Dck} (set : clock.isSet = true) (n : WindowNo) :
    n ∈ openWindows windows clock ↔ (windows.get n).openAt clock.day clock.minute = true := by
  simp [openWindows, set]

/-- The windows that are open and cover a zone. -/
def coveringWindows (windows : PerWindow Window) (clock : Dck) (z : Zone) : List WindowNo :=
  (openWindows windows clock).filter fun n => maskHas (windows.get n).zones z

theorem mem_coveringWindows {windows : PerWindow Window} {clock : Dck} (set : clock.isSet = true) (z : Zone)
    (n : WindowNo) : n ∈ coveringWindows windows clock z ↔
      (windows.get n).openAt clock.day clock.minute = true ∧ maskHas (windows.get n).zones z = true := by
  rw [coveringWindows, List.mem_filter, mem_openWindows set]

theorem wantedSchedule_eq (windows : PerWindow Window) (clock : Dck) (z : Zone) :
    wantedSchedule windows clock z =
      if coveringWindows windows clock z = [] then none
      else some (largest ((coveringWindows windows clock z).map fun n => (windows.get n).demand)) := by
  unfold wantedSchedule coveringWindows
  split <;> simp_all

theorem wantedSchedule_isSome {windows : PerWindow Window} {clock : Dck} (set : clock.isSet = true) (z : Zone) :
    (wantedSchedule windows clock z).isSome = true ↔
      ∃ n, (windows.get n).openAt clock.day clock.minute = true ∧ maskHas (windows.get n).zones z = true := by
  rw [wantedSchedule_eq]
  simp only [← mem_coveringWindows set z]
  split
  · rename_i none
    simp [none]
  · rename_i some
    exact ⟨fun _ => List.exists_mem_of_ne_nil _ some, fun _ => rfl⟩

/-- Settles O17. -/
theorem windowsOpenByDayAndMinute : Obligations.WindowsOpenByDayAndMinute := by
  unfold Obligations.WindowsOpenByDayAndMinute
  exact ⟨fun w d m => ⟨fun h => Window.openAt_of_eq h d m, fun h => Window.openAt_of_lt h d m,
    fun h => Window.openAt_of_gt h d m⟩, fun windows clock z set => wantedSchedule_isSome set z,
    fun _ _ => rfl, fun _ _ => rfl⟩

end Sys2Proof.Machine

/-! What the operations on the plant keep beyond the moves: the sequencer touches its own record and the event set alone,
the fire-override outputs follow run command and fire flag (R154), the duty orders are rearranged and no more (R117), the
smoke-control statuses are the present ones (R27) and a change that the masters see raises ZONE-CHANGE (R11, R28). -/

namespace Sys2Proof.Machine

/-! ## The sequencer's own record -/

/-- From one plant to another nothing but the sequencer's record and the event set has changed, and no event is taken
back. -/
structure Plant.FsqOnly (p q : Plant) : Prop where
  zones : q.zones = p.zones
  fireOrder : q.fireOrder = p.fireOrder
  dampers : q.dampers = p.dampers
  gal : q.gal = p.gal
  spm : q.spm = p.spm
  events : ∀ k, p.events.has k = true → q.events.has k = true

theorem Plant.FsqOnly.refl (p : Plant) : p.FsqOnly p := ⟨rfl, rfl, rfl, rfl, rfl, fun _ h => h⟩

theorem Plant.FsqOnly.trans {p q r : Plant} (h : p.FsqOnly q) (k : q.FsqOnly r) : p.FsqOnly r :=
  ⟨k.zones.trans h.zones, k.fireOrder.trans h.fireOrder, k.dampers.trans h.dampers, k.gal.trans h.gal,
    k.spm.trans h.spm, fun e x => k.events e (h.events e x)⟩

theorem Plant.FsqOnly.of_fsq (p : Plant) (x : Fsq) : p.FsqOnly { p with fsq := x } :=
  ⟨rfl, rfl, rfl, rfl, rfl, fun _ h => h⟩

theorem Plant.FsqOnly.raise (p : Plant) (k : EventKind) : p.FsqOnly (p.raise k) :=
  ⟨rfl, rfl, rfl, rfl, rfl, p.events_raise k⟩

theorem Plant.FsqOnly.setFan (p : Plant) (f : Fan) (r : FanRec) : p.FsqOnly (p.setFan f r) := .of_fsq p _

theorem Plant.FsqOnly.leave (p : Plant) (f : Fan) : p.FsqOnly (p.leave f) := by
  unfold Plant.leave Plant.unstageFan
  split
  · split <;> exact .of_fsq p _
  · exact .of_fsq p _

theorem Plant.FsqOnly.join (p : Plant) (f : Fan) : p.FsqOnly (p.join f) := by
  unfold Plant.join
  simp only
  split <;> exact .of_fsq p _

theorem Plant.FsqOnly.trip (p : Plant) (f : Fan) (c : TripCause) : p.FsqOnly (p.trip f c).1 :=
  (setFan p f _).trans (raise _ _)

theorem Plant.FsqOnly.failFan (p : Plant) (f : Fan) (c : TripCause) : p.FsqOnly (p.failFan f c).1 := by
  unfold Plant.failFan
  simp only
  split
  · split
    · exact ((setFan p f _).trans (setFan _ f _)).trans (join _ f)
    · exact (setFan p f _).trans (trip _ f c)
  · exact trip p f c

theorem Plant.FsqOnly.prove (cfg : Settings) (p : Plant) (f : Fan) : p.FsqOnly (p.prove cfg f) := by
  unfold Plant.prove
  simp only
  split <;> exact setFan p f _

theorem Plant.FsqOnly.startTests (cfg : Settings) (p : Plant) (f : Fan) : p.FsqOnly (p.startTests cfg f).1 := by
  unfold Plant.startTests
  simp only
  split
  · exact failFan p f _
  · split
    · exact prove cfg p f
    · exact refl p

theorem Plant.FsqOnly.stageHead (cfg : Settings) (p : Plant) : p.FsqOnly (stageHead cfg p) := by
  unfold Machine.stageHead
  split
  · exact refl p
  · split
    · exact .of_fsq p _
    · exact refl p

theorem Plant.FsqOnly.launch (cfg : Settings) (p : Plant) (f : Fan) : p.FsqOnly (launch cfg p f).1 := by
  unfold Machine.launch
  exact (((leave p f).trans (.of_fsq _ _)).trans (setFan _ f _)).trans (startTests cfg _ f)

theorem Plant.FsqOnly.queueTest (cfg : Settings) (p : Plant) : p.FsqOnly (queueTest cfg p).1 := by
  unfold Machine.queueTest
  simp only
  split
  · exact stageHead cfg p
  · split
    · exact ((stageHead cfg p).trans (launch cfg _ _)).trans (stageHead cfg _)
    · exact stageHead cfg p

theorem Plant.FsqOnly.applyGrant (cfg : Settings) (p : Plant) (f : Fan) (g : Grant) :
    p.FsqOnly (applyGrant cfg p f g) := by
  have first := setFan p f { p.fan f with target := g.target, fire := g.fire }
  unfold Machine.applyGrant
  simp only
  split
  case h_3 =>
    split
    · exact (first.trans (leave _ f)).trans (setFan _ f _)
    · exact first
  case h_1 | h_2 =>
    split
    · exact first
    · exact (first.trans (setFan _ f _)).trans (join _ f)
  case h_4 | h_5 | h_6 =>
    split
    · exact first.trans (setFan _ f _)
    · exact first
  all_goals exact first

theorem Plant.FsqOnly.reclass (p : Plant) : p.FsqOnly (reclass p) := .of_fsq p _

theorem Plant.FsqOnly.retest (cfg : Settings) (p : Plant) : p.FsqOnly (retest cfg p) := by
  unfold Machine.retest
  split
  · exact refl p
  · exact .of_fsq p _
  · split
    · simp only
      split <;> exact .of_fsq p _
    · exact .of_fsq p _

theorem Plant.FsqOnly.setOverride (x : Reported) (f : Fan) : x.1.FsqOnly (setOverride x f).1 := by
  unfold Machine.setOverride
  simp only
  split
  · exact (setFan x.1 f _).trans (failFan _ f _)
  · exact setFan x.1 f _

/-- A fold of operations that touch the sequencer's record alone does so too. -/
theorem Plant.FsqOnly.foldl {α : Type} {step : Plant → α → Plant} (h : ∀ (p : Plant) a, p.FsqOnly (step p a)) (l : List α)
    (p : Plant) : p.FsqOnly (l.foldl step p) := by
  induction l generalizing p with
  | nil => exact refl p
  | cons a l ih => exact (h p a).trans (ih _)

theorem Plant.FsqOnly.setOverrides (l : List Fan) (x : Reported) : x.1.FsqOnly (l.foldl Machine.setOverride x).1 := by
  induction l generalizing x with
  | nil => exact refl x.1
  | cons f l ih => exact (setOverride x f).trans (ih _)

theorem Plant.FsqOnly.fsqPass (cfg : Settings) (grants : PerFan Grant) (p : Plant) :
    p.FsqOnly (fsqPass cfg grants p).1 := by
  unfold Machine.fsqPass
  simp only
  refine .trans ?_ (queueTest cfg _)
  refine .trans ?_ (setOverrides Fan.all (_, []))
  refine .trans ?_ (retest cfg _)
  refine .trans ?_ (reclass _)
  exact .trans (of_fsq p _) (.foldl (fun q f => applyGrant cfg q f (grants.get f)) Fan.all _)

/-! ## The fire-override outputs (R154) -/

/-- The fire-override output of a fan is set exactly while its run command is on and its fire flag is set. -/
def FanRec.OverrideOk (r : FanRec) : Prop := r.fireOverride = (r.run && r.fire)

/-- Every fan whose fire-override output follows its run command and fire flag in one plant is such a fan in the other. -/
def Plant.KeepsOverride (p q : Plant) : Prop := ∀ f, (p.fan f).OverrideOk → (q.fan f).OverrideOk

theorem Plant.KeepsOverride.refl (p : Plant) : p.KeepsOverride p := fun _ h => h

theorem Plant.KeepsOverride.trans {p q r : Plant} (h : p.KeepsOverride q) (k : q.KeepsOverride r) :
    p.KeepsOverride r := fun f x => k f (h f x)

theorem Plant.KeepsOverride.of_fans {p q : Plant} (h : q.fsq.fans = p.fsq.fans) : p.KeepsOverride q := fun f x => by
  rw [Plant.fan, h]
  exact x

theorem Plant.KeepsOverride.setFan {p : Plant} {f : Fan} {r : FanRec} (h : (p.fan f).OverrideOk → r.OverrideOk) :
    p.KeepsOverride (p.setFan f r) := fun g x => by
  rw [Plant.setFan_fan]
  split
  · rename_i e
    exact h (e ▸ x)
  · exact x

theorem FanRec.release_overrideOk (r : FanRec) (state : FanState) : (r.release state).OverrideOk := rfl

theorem Plant.KeepsOverride.leave (p : Plant) (f : Fan) : p.KeepsOverride (p.leave f) := .of_fans (by simp)

theorem Plant.KeepsOverride.join (p : Plant) (f : Fan) : p.KeepsOverride (p.join f) := .of_fans (by simp)

theorem Plant.KeepsOverride.trip (p : Plant) (f : Fan) (c : TripCause) : p.KeepsOverride (p.trip f c).1 :=
  .setFan fun _ => (p.fan f).release_overrideOk .tripped

theorem Plant.KeepsOverride.failFan (p : Plant) (f : Fan) (c : TripCause) : p.KeepsOverride (p.failFan f c).1 := by
  unfold Plant.failFan
  simp only
  have counted : p.KeepsOverride (p.setFan f { p.fan f with attempts := (p.fan f).attempts + 1 }) := .setFan fun h => h
  split
  · split
    · exact (counted.trans (.setFan fun _ => FanRec.release_overrideOk _ _)).trans (.join _ f)
    · exact counted.trans (.trip _ f c)
  · exact .trip p f c

theorem Plant.KeepsOverride.prove (cfg : Settings) (p : Plant) (f : Fan) : p.KeepsOverride (p.prove cfg f) := by
  unfold Plant.prove
  simp only
  split <;> exact .setFan fun h => h

theorem Plant.KeepsOverride.stageHead (cfg : Settings) (p : Plant) : p.KeepsOverride (stageHead cfg p) := by
  unfold Machine.stageHead
  split
  · exact .refl p
  · split <;> exact .of_fans rfl

theorem Plant.KeepsOverride.startTests (cfg : Settings) (p : Plant) (f : Fan) :
    p.KeepsOverride (p.startTests cfg f).1 := by
  unfold Plant.startTests
  simp only
  split
  · exact .failFan p f _
  · split
    · exact .prove cfg p f
    · exact .refl p

theorem Plant.KeepsOverride.launch (cfg : Settings) (p : Plant) (f : Fan) : p.KeepsOverride (launch cfg p f).1 := by
  unfold Machine.launch
  simp only
  refine .trans ?_ (.startTests cfg _ f)
  refine .trans (q := { p.leave f with fsq := { (p.leave f).fsq with spacing := some cfg.timers.spacing } })
    (.trans (.leave p f) (.of_fans rfl)) (.setFan fun _ => ?_)
  simp [FanRec.OverrideOk, FanRec.launched]

theorem Plant.KeepsOverride.queueTest (cfg : Settings) (p : Plant) : p.KeepsOverride (queueTest cfg p).1 := by
  unfold Machine.queueTest
  simp only
  split
  · exact .stageHead cfg p
  · split
    · exact ((stageHead cfg p).trans (.launch cfg _ _)).trans (.stageHead cfg _)
    · exact .stageHead cfg p

/-- After the setting of the outputs at the end of the grants every listed fan is in order, whatever the grants did. -/
theorem setOverride_overrideOk (x : Reported) (f : Fan) :
    x.1.KeepsOverride (setOverride x f).1 ∧ ((setOverride x f).1.fan f).OverrideOk := by
  have fixed : x.1.KeepsOverride (x.1.setFan f { x.1.fan f with fireOverride := (x.1.fan f).run && (x.1.fan f).fire }) :=
    .setFan fun _ => rfl
  unfold setOverride
  simp only
  split
  · exact ⟨fixed.trans (.failFan _ f _), Plant.KeepsOverride.failFan _ f _ f (by simp [FanRec.OverrideOk])⟩
  · exact ⟨fixed, by simp [FanRec.OverrideOk]⟩

theorem setOverrides_overrideOk (l : List Fan) (x : Reported) :
    x.1.KeepsOverride (l.foldl setOverride x).1 ∧ ∀ f ∈ l, ((l.foldl setOverride x).1.fan f).OverrideOk := by
  induction l generalizing x with
  | nil => exact ⟨.refl _, by simp⟩
  | cons a l ih =>
    obtain ⟨keeps, fixed⟩ := setOverride_overrideOk x a
    obtain ⟨later, rest⟩ := ih (setOverride x a)
    refine ⟨keeps.trans later, fun f hf => ?_⟩
    rcases List.mem_cons.mp hf with rfl | hf
    · exact later f fixed
    · exact rest f hf

theorem fsqPass_overrideOk (cfg : Settings) (grants : PerFan Grant) (p : Plant) :
    (fsqPass cfg grants p).1.OverrideOk := by
  unfold fsqPass
  simp only
  exact fun f => Plant.KeepsOverride.queueTest cfg _ f ((setOverrides_overrideOk Fan.all (_, [])).2 f (Fan.mem_all f))

/-! ## Duty orders, ZONE-CHANGE and the statuses -/

/-- What the masters see of a zone: directive, demand and winning source, and the smoke-control status (R11, R28). -/
def ZoneRec.Shown (a b : ZoneRec) : Prop :=
  b.result.directive = a.result.directive ∧ b.result.demand = a.result.demand ∧ b.result.source = a.result.source ∧
    b.status = a.status

/-- ZONE-CHANGE is not taken back, and it pends when what is shown of a zone has changed. -/
structure Plant.Noted (p q : Plant) : Prop where
  stays : p.events.zoneChange = true → q.events.zoneChange = true
  noted : q.events.zoneChange = true ∨ ∀ z, (p.zones.get z).Shown (q.zones.get z)

theorem ZoneRec.Shown.refl (a : ZoneRec) : a.Shown a := ⟨rfl, rfl, rfl, rfl⟩

theorem ZoneRec.Shown.trans {a b c : ZoneRec} (h : a.Shown b) (k : b.Shown c) : a.Shown c :=
  ⟨k.1.trans h.1, k.2.1.trans h.2.1, k.2.2.1.trans h.2.2.1, k.2.2.2.trans h.2.2.2⟩

theorem Plant.Noted.of_zones {p q : Plant} (zones : q.zones = p.zones)
    (stays : p.events.zoneChange = true → q.events.zoneChange = true) : p.Noted q :=
  ⟨stays, .inr fun z => by rw [zones]; exact .refl _⟩

theorem Plant.Noted.trans {p q r : Plant} (h : p.Noted q) (k : q.Noted r) : p.Noted r := by
  refine ⟨fun x => k.stays (h.stays x), ?_⟩
  rcases k.noted with raised | shown
  · exact .inl raised
  · rcases h.noted with raised | before
    · exact .inl (k.stays raised)
    · exact .inr fun z => (before z).trans (shown z)

/-- What an operation on the plant under given settings keeps, whatever moves it is made of. -/
structure Plant.Kept (cfg : Settings) (p q : Plant) : Prop where
  duty : ∀ g, (p.gal.groups.get g).duty.Nodup → (q.gal.groups.get g).duty.Perm (p.gal.groups.get g).duty
  noted : p.Noted q
  override : p.OverrideOk → q.OverrideOk
  status : (∀ z, StatusSays cfg p z (p.zones.get z).status) → ∀ z, StatusSays cfg q z (q.zones.get z).status

theorem Plant.Kept.refl (cfg : Settings) (p : Plant) : p.Kept cfg p :=
  ⟨fun _ _ => .refl _, .of_zones rfl fun h => h, fun h => h, fun h => h⟩

theorem Plant.Kept.trans {cfg : Settings} {p q r : Plant} (h : p.Kept cfg q) (k : q.Kept cfg r) : p.Kept cfg r :=
  ⟨fun g x => (k.duty g ((h.duty g x).nodup_iff.mpr x)).trans (h.duty g x), h.noted.trans k.noted, fun x => k.override (h.override x),
    fun x => k.status (h.status x)⟩

theorem Plant.Kept.foldl {α : Type} {cfg : Settings} {f : Plant → α → Plant} (h : ∀ (p : Plant) a, p.Kept cfg (f p a))
    (l : List α) (p : Plant) : p.Kept cfg (l.foldl f p) := by
  induction l generalizing p with
  | nil => exact .refl cfg p
  | cons a l ih => exact (h p a).trans (ih _)

/-- A status is said by the claims of its zone, the state of its damper and the states of the fans alone. -/
theorem StatusSays.congr {cfg : Settings} {p q : Plant} {z : Zone} {x : SmokeStatus}
    (claims : (q.zones.get z).claims = (p.zones.get z).claims)
    (damper : (q.dampers.get z).state = (p.dampers.get z).state) (fans : ∀ f, (q.fan f).state = (p.fan f).state) :
    StatusSays cfg p z x → StatusSays cfg q z x := by
  intro h
  simpa only [StatusSays, claims, damper, fans] using h

/-- A change of nothing that the kept rules speak of. -/
theorem Plant.Kept.of_alike {cfg : Settings} {p q : Plant} (zones : q.zones = p.zones)
    (damper : ∀ z, (q.dampers.get z).state = (p.dampers.get z).state)
    (duty : ∀ g, (p.gal.groups.get g).duty.Nodup → (q.gal.groups.get g).duty.Perm (p.gal.groups.get g).duty)
    (state : ∀ f, (q.fan f).state = (p.fan f).state) (override : p.OverrideOk → q.OverrideOk)
    (events : ∀ k, p.events.has k = true → q.events.has k = true) : p.Kept cfg q :=
  ⟨duty, .of_zones zones (events .zoneChange), override,
    fun h z => by rw [zones]; exact (h z).congr (by rw [zones]) (damper z) state⟩

@[simp] theorem refreshStatus_zone (cfg : Settings) (p : Plant) (z : Zone) :
    (refreshStatus cfg p).zones.get z = { p.zones.get z with status := statusOf cfg p z } := by simp [refreshStatus]

@[simp] theorem refreshStatus_fsq (cfg : Settings) (p : Plant) : (refreshStatus cfg p).fsq = p.fsq := by
  simp [refreshStatus]

@[simp] theorem refreshStatus_gal (cfg : Settings) (p : Plant) : (refreshStatus cfg p).gal = p.gal := by
  simp [refreshStatus]

@[simp] theorem refreshStatus_dampers (cfg : Settings) (p : Plant) : (refreshStatus cfg p).dampers = p.dampers := by
  simp [refreshStatus]

@[simp] theorem refreshStatus_fireOrder (cfg : Settings) (p : Plant) :
    (refreshStatus cfg p).fireOrder = p.fireOrder := by
  simp [refreshStatus]

theorem refreshStatus_events (cfg : Settings) (p : Plant) (k : EventKind) :
    (refreshStatus cfg p).events.has k =
      ((Zone.all.any fun z => (p.zones.get z).status != statusOf cfg p z) && decide (k = .zoneChange) ||
        p.events.has k) := by
  simp [refreshStatus]

/-- Statuses brought up to date, with ZONE-CHANGE for one that differed (R27, R28). -/
theorem refreshStatus_noted (cfg : Settings) (p : Plant) : p.Noted (refreshStatus cfg p) := by
  refine ⟨(refreshStatus_chain cfg p).same.events .zoneChange, ?_⟩
  by_cases same : ∀ z, (p.zones.get z).status = statusOf cfg p z
  · exact .inr fun z => ⟨by simp, by simp, by simp, by simp [same]⟩
  · have : (refreshStatus cfg p).events.has .zoneChange = true := by
      simpa [refreshStatus_events] using .inl (not_forall.mp same)
    exact .inl this

theorem refreshStatus_kept (cfg : Settings) (p : Plant) : p.Kept cfg (refreshStatus cfg p) :=
  ⟨fun g _ => by rw [refreshStatus_gal], refreshStatus_noted cfg p,
    fun h f => by simpa [Plant.fan] using h f, fun _ => refreshStatus_says cfg p⟩

/-- An operation of the sequencer, and then the statuses brought up to date. -/
theorem Plant.FsqOnly.kept {cfg : Settings} {p q : Plant} (h : p.FsqOnly q) (override : p.OverrideOk → q.OverrideOk) :
    p.Kept cfg (refreshStatus cfg q) :=
  ⟨fun g _ => by rw [refreshStatus_gal, h.gal],
    .trans (.of_zones h.zones (h.events .zoneChange)) (refreshStatus_noted cfg q),
    fun x => (refreshStatus_kept cfg q).override (override x), fun _ => refreshStatus_says cfg q⟩

/-! ## The pass (R117, R129) -/

theorem setDuty_duty (p : Plant) (g h : Group) (d : List Fan) :
    ((p.setDuty g d).gal.groups.get h).duty = if h = g then d else (p.gal.groups.get h).duty := by
  simp only [Plant.setDuty, PerGroup.get_set]
  split <;> rfl

theorem setDuty_kept (cfg : Settings) (p : Plant) (g : Group) {d : List Fan}
    (h : (p.gal.groups.get g).duty.Nodup → d.Perm (p.gal.groups.get g).duty) : p.Kept cfg (p.setDuty g d) := by
  refine .of_alike rfl (fun _ => rfl) (fun x nodup => ?_) (fun _ => rfl) (fun x => x) fun _ x => x
  rw [setDuty_duty]
  split
  · rename_i e
    subst e
    exact h nodup
  · exact .refl _

theorem rotateDuty_perm (l : List Fan) : (rotateDuty l).Perm l := by
  cases l with
  | nil => exact .refl _
  | cons f l => exact List.perm_append_singleton f l

theorem sendBack_perm {f : Fan} {l : List Fan} (h : l.Nodup) : (sendBack f l).Perm l := by
  unfold sendBack
  split
  · rename_i mem
    have mem : f ∈ l := by simpa using mem
    rw [← h.erase_eq_filter f]
    exact (List.perm_append_singleton f _).trans (List.perm_cons_erase mem).symm
  · exact .refl _

end Sys2Proof.Machine

/-! The operations on the plant keep the duty orders, the fire-override outputs, the statuses and ZONE-CHANGE: the pass
with all it sets off, the events of fans and dampers, the claim requests and the supply. -/

namespace Sys2Proof.Machine

/-! ## The records of a pass -/

@[simp] theorem GroupRec.grant_duty (r : GroupRec) (n v : Nat) (c : Curtailment) : (r.grant n v c).duty = r.duty := rfl

theorem mapClass_get (rs : PerGroup GroupRec) (cls : GroupClass) (f : Group → GroupRec → GroupRec) (g : Group) :
    (mapClass rs cls f).get g = if (rs.get g).cls = cls then f g (rs.get g) else rs.get g := by
  simp [mapClass]

/-- Serving a class gives each of its groups a grant and leaves the other groups alone. -/
theorem serveClass_get (cfg : Settings) (cls : GroupClass) (rs : PerGroup GroupRec) (n : Nat) (g : Group) :
    ∃ kept v c, (serveClass cfg cls rs n).1.get g = if (rs.get g).cls = cls then (rs.get g).grant kept v c else rs.get g := by
  unfold serveClass
  simp only
  split
  · exact ⟨_, _, _, mapClass_get ..⟩
  · split <;> exact ⟨_, _, _, mapClass_get ..⟩

/-- A group's record in a pass is that of stage 1, in a supply hold, or with its chosen fans granted something. -/
theorem allocate_group (cfg : Settings) (p : Plant) (g : Group) :
    (allocate cfg p).groups.get g = stageOne cfg p g ∨
      ∃ kept v c, (allocate cfg p).groups.get g = (stageOne cfg p g).grant kept v c := by
  unfold allocate
  simp only
  split
  · exact .inl (by simp)
  · obtain ⟨a, b, c, fire⟩ : ∃ kept v c,
        (mapClass (.build (stageOne cfg p)) .fire fun _ r => r.grant r.chosen.length r.speed .none).get g =
          if (stageOne cfg p g).cls = .fire then (stageOne cfg p g).grant kept v c else stageOne cfg p g :=
      ⟨(stageOne cfg p g).chosen.length, (stageOne cfg p g).speed, .none, by rw [mapClass_get, PerGroup.get_build]⟩
    obtain ⟨d, e, h, high⟩ := serveClass_get cfg .high
      (mapClass (.build (stageOne cfg p)) .fire fun _ r => r.grant r.chosen.length r.speed .none)
      (p.gal.budget - classPower cfg (.build (stageOne cfg p)) .fire fun g => ((PerGroup.build (stageOne cfg p)).get g).speed) g
    obtain ⟨i, j, k, normal⟩ := serveClass_get cfg .normal _ _ g
    rw [normal, high, fire]
    cases cls : (stageOne cfg p g).cls
    · exact .inr ⟨i, j, k, by simp [cls]⟩
    · exact .inr ⟨d, e, h, by simp [cls, GroupRec.grant]⟩
    · exact .inr ⟨a, b, c, by simp [cls, GroupRec.grant]⟩

@[simp] theorem allocate_duty (cfg : Settings) (p : Plant) (g : Group) :
    ((allocate cfg p).groups.get g).duty = (p.gal.groups.get g).duty := by
  rcases allocate_group cfg p g with h | ⟨_, _, _, h⟩ <;> rw [h] <;> rfl

/-! ## The pass -/

theorem recordPass_kept (cfg : Settings) (p : Plant) : p.Kept cfg (recordPass (allocate cfg p) p) := by
  refine .of_alike (by simp [recordPass]) (by simp [recordPass]) (fun g _ => ?_) (by simp [recordPass, Plant.fan])
    (fun h f => by simpa [recordPass, Plant.fan] using h f) (recordPass_chain cfg _ p).same.events
  simp [recordPass]

theorem rotate_kept (cfg : Settings) (before now : PerGroup GroupRec) (p : Plant) :
    p.Kept cfg (rotate before now p) := by
  refine .foldl (fun q g => ?_) Group.all p
  split
  · exact setDuty_kept cfg q g fun _ => rotateDuty_perm _
  · exact .refl cfg q

theorem sendToBack_kept (cfg : Settings) (f : Fan) (p : Plant) : p.Kept cfg (sendToBack cfg f p) := by
  unfold sendToBack
  split
  · exact setDuty_kept cfg p _ sendBack_perm
  · exact .refl cfg p

theorem passes_kept (cfg : Settings) (n : Nat) (p : Plant) : p.Kept cfg (passes cfg n p) := by
  induction n generalizing p with
  | zero => exact .refl cfg p
  | succ n ih =>
    unfold passes
    simp only
    have granted := (Plant.FsqOnly.fsqPass cfg (allocate cfg p).grants (recordPass (allocate cfg p) p)).kept (cfg := cfg)
      fun _ => fsqPass_overrideOk cfg _ _
    exact (((recordPass_kept cfg p).trans granted).trans (rotate_kept cfg _ _ _)).trans
      (.foldl (fun q f => (sendToBack_kept cfg f q).trans (ih _)) _ _)

theorem runPass_kept (cfg : Settings) (p : Plant) : p.Kept cfg (runPass cfg p) := passes_kept cfg 13 p

/-! ## Events of fans -/

theorem takeReport_kept (cfg : Settings) (p : Plant) (f : Fan) : p.Kept cfg (takeReport cfg p f) :=
  (sendToBack_kept cfg f p).trans (runPass_kept cfg _)

theorem report_kept (cfg : Settings) {p : Plant} {x : Reported} (h : p.FsqOnly x.1) (k : p.KeepsOverride x.1) :
    p.Kept cfg (report cfg x) :=
  (h.kept fun o f => k f (o f)).trans (.foldl (takeReport_kept cfg) x.2 _)

theorem testQueue_kept (cfg : Settings) (p : Plant) : p.Kept cfg (testQueue cfg p) :=
  report_kept cfg (.queueTest cfg p) (.queueTest cfg p)

theorem fanEvent_kept (cfg : Settings) {p : Plant} {x : Reported} (h : p.FsqOnly x.1) (k : p.KeepsOverride x.1) :
    p.Kept cfg (fanEvent cfg x) := (report_kept cfg h k).trans (testQueue_kept cfg _)

theorem timeoutFan_only (p : Plant) (f : Fan) : p.FsqOnly (timeoutFan p f).1 ∧ p.KeepsOverride (timeoutFan p f).1 := by
  unfold timeoutFan
  split
  · exact ⟨.failFan p f _, .failFan p f _⟩
  · exact ⟨.failFan p f _, .failFan p f _⟩
  · exact ⟨.setFan p f _, .setFan fun _ => FanRec.release_overrideOk _ _⟩
  · exact ⟨.refl p, .refl p⟩

theorem expireFan_kept (cfg : Settings) (p : Plant) (f : Fan) : p.Kept cfg (expireFan cfg p f) := by
  obtain ⟨only, keeps⟩ := timeoutFan_only p f
  unfold expireFan
  split
  · split
    · exact fanEvent_kept cfg only keeps
    · exact report_kept cfg only keeps
  · exact .refl cfg p

theorem expireIn_kept (cfg : Settings) (state : FanState) (f : Fan) (p : Plant) :
    p.Kept cfg (expireIn cfg state f p) := by
  unfold expireIn
  split
  · exact expireFan_kept cfg p f
  · exact .refl cfg p

/-- A record replaced that keeps state, run command, fire flag and override output. -/
theorem setFan_kept (cfg : Settings) (p : Plant) (f : Fan) (r : FanRec) (state : r.state = (p.fan f).state)
    (override : (p.fan f).OverrideOk → r.OverrideOk) : p.Kept cfg (p.setFan f r) := by
  refine .of_alike rfl (fun _ => rfl) (fun _ _ => .refl _) (fun g => ?_) (fun h g => ?_) fun _ h => h
  · rw [Plant.setFan_fan]
    split
    · rename_i e
      exact e ▸ state
    · rfl
  · exact Plant.KeepsOverride.setFan override g (h g)

theorem changeDriveInput_kept (cfg : Settings) (f : Fan) (i : DriveInput) (b : Bool) (p : Plant) :
    p.Kept cfg (changeDriveInput cfg f i b p) := by
  have recorded : (p.fan f).OverrideOk → ((p.fan f).setLevel i b).OverrideOk := fun h => by cases i <;> exact h
  have only : p.FsqOnly (p.setFan f ((p.fan f).setLevel i b)) := .setFan p f _
  have keeps : p.KeepsOverride (p.setFan f ((p.fan f).setLevel i b)) := .setFan recorded
  have quiet : p.Kept cfg (p.setFan f ((p.fan f).setLevel i b)) := setFan_kept cfg p f _ (by simp) recorded
  unfold changeDriveInput
  simp only
  split
  · exact .refl cfg p
  · split
    · split
      · exact fanEvent_kept cfg (only.trans (.prove cfg _ f)) (keeps.trans (.prove cfg _ f))
      · exact quiet
    · split
      · exact report_kept cfg (only.trans (.prove cfg _ f)) (keeps.trans (.prove cfg _ f))
      · exact quiet
    · split
      · exact fanEvent_kept cfg (only.trans (.failFan _ f _)) (keeps.trans (.failFan _ f _))
      · exact quiet
    · exact quiet

theorem airflowLost_kept (cfg : Settings) (f : Fan) (p : Plant) : p.Kept cfg (airflowLost cfg f p) := by
  have only : p.FsqOnly (p.setFan f { p.fan f with airflow := false }) := .setFan p f _
  have keeps : p.KeepsOverride (p.setFan f { p.fan f with airflow := false }) := .setFan fun h => h
  unfold airflowLost
  split
  · exact fanEvent_kept cfg (only.trans (.failFan _ f _)) (keeps.trans (.failFan _ f _))
  · exact .refl cfg p

/-- Every fan record changed at once, in nothing that the kept rules speak of. -/
theorem fans_kept (cfg : Settings) (p : Plant) (x : Fsq) (state : ∀ f, (x.fans.get f).state = (p.fan f).state)
    (override : ∀ f, (p.fan f).OverrideOk → (x.fans.get f).OverrideOk) : p.Kept cfg { p with fsq := x } :=
  .of_alike rfl (fun _ => rfl) (fun _ _ => .refl _) state (fun h f => override f (h f)) fun _ h => h

/-- The output of a fan after the falls of a ramp period (R150, step 1). -/
def FanRec.lowered (step : Nat) (r : FanRec) : Nat := if r.state.ramped then rampDown step r.output r.target else r.output

/-- The plant after the falls of a ramp period. -/
def lowerOutputs (cfg : Settings) (p : Plant) : Plant :=
  { p with fsq := { p.fsq with
    fans := .build fun f => { p.fan f with output := (p.fan f).lowered cfg.timers.rampStep } } }

@[simp] theorem lowerOutputs_fan (cfg : Settings) (p : Plant) (f : Fan) :
    (lowerOutputs cfg p).fan f = { p.fan f with output := (p.fan f).lowered cfg.timers.rampStep } := by
  simp [lowerOutputs, Plant.fan]

/-- The output of a fan at the end of a ramp period, with or without room for a rise of a NORMAL fan (R150). -/
def FanRec.ramped (step : Nat) (room : Bool) (r : FanRec) : Nat :=
  if r.state.ramped && decide (r.output < r.target) && (r.fire || room) then rampUp step r.output r.target
  else r.lowered step

/-- A ramp period's rise, after its falls, ends at the ramped output. -/
theorem FanRec.raised_lowered (step : Nat) (room : Bool) (r : FanRec) :
    (if r.state.ramped && decide (r.output < r.target) && (r.fire || room) then
      { r with output := rampUp step (r.lowered step) r.target } else { r with output := r.lowered step }) =
      { r with output := r.ramped step room } := by
  unfold FanRec.ramped
  split
  · rename_i rises
    simp only [Bool.and_eq_true, decide_eq_true_eq] at rises
    obtain ⟨⟨ramps, below⟩, -⟩ := rises
    simp [FanRec.lowered, ramps, rampDown, below.not_gt]
  · rfl

/-- The ramp changes outputs alone. -/
theorem ramp_eq (cfg : Settings) (p : Plant) :
    ramp cfg p = { p with fsq := { p.fsq with fans := .build fun f => { p.fan f with
      output := (p.fan f).ramped cfg.timers.rampStep
        (decide (committed cfg (lowerOutputs cfg p) ≤ p.fsq.budget)) } } } := by
  have lowered : (PerFan.build fun f => if (p.fan f).state.ramped then
      { p.fan f with output := rampDown cfg.timers.rampStep (p.fan f).output (p.fan f).target } else p.fan f) =
      .build fun f => { p.fan f with output := (p.fan f).lowered cfg.timers.rampStep } := by
    refine PerFan.ext_get fun f => ?_
    simp only [PerFan.get_build, FanRec.lowered]
    split <;> rfl
  simp only [← FanRec.raised_lowered]
  unfold ramp
  simp only [lowered]
  rw [← lowerOutputs]
  simp only [lowerOutputs_fan]

@[simp] theorem ramp_fan (cfg : Settings) (p : Plant) (f : Fan) :
    (ramp cfg p).fan f = { p.fan f with
      output := (p.fan f).ramped cfg.timers.rampStep (decide (committed cfg (lowerOutputs cfg p) ≤ p.fsq.budget)) } := by
  rw [ramp_eq]
  simp [Plant.fan]

theorem ramp_kept (cfg : Settings) (p : Plant) : p.Kept cfg (ramp cfg p) := by
  rw [ramp_eq]
  exact fans_kept cfg p _ (fun f => by simp) fun f h => by rw [PerFan.get_build]; exact h

theorem tick_kept (cfg : Settings) (p : Plant) : p.Kept cfg p.tick := by
  refine .of_alike rfl (fun z => ?_) (fun _ _ => .refl _) (fun f => ?_) (fun h f => ?_) fun _ h => h
  · simp [Plant.tick]
  · simp [Plant.tick, Plant.fan]
  · simpa [Plant.tick, Plant.fan] using h f

theorem retimeFans_kept (cfg : Settings) (old new : TimersBlock) (p : Plant) :
    p.Kept cfg (retimeFans cfg old new p) := by
  unfold retimeFans
  simp only
  have first : p.Kept cfg { p with fsq := { p.fsq with
      fans := .build fun f => (p.fan f).retime old new
      spacing := p.fsq.spacing.bind (rebase old.spacing new.spacing) } } := by
    refine fans_kept cfg p _ (fun f => ?_) (fun f h => ?_)
    · simp only [PerFan.get_build, FanRec.retime]
      split <;> rfl
    · simp only [PerFan.get_build, FanRec.retime]
      split <;> exact h
  have due (l : List Fan) := first.trans (.foldl (expireFan_kept cfg) l _)
  split
  · exact (due _).trans (testQueue_kept cfg _)
  · exact due _

theorem lockPlantFan_kept (cfg : Settings) (f : Fan) (p : Plant) : p.Kept cfg (lockPlantFan cfg f p) := by
  have only (q : Plant) : q.FsqOnly (q.setFan f (q.fan f).lock) := .setFan q f _
  have keeps (q : Plant) : q.KeepsOverride (q.setFan f (q.fan f).lock) := .setFan fun _ => (FanRec.release_overrideOk _ .locked :)
  unfold lockPlantFan
  simp only
  split
  · exact (((Plant.FsqOnly.leave p f).trans (only _)).kept fun h g =>
      ((Plant.KeepsOverride.leave p f).trans (keeps _)) g (h g)).trans (takeReport_kept cfg _ f)
  · exact ((only p).kept fun h g => keeps p g (h g)).trans (takeReport_kept cfg _ f)

theorem returnPlantFan_kept (cfg : Settings) (f : Fan) (p : Plant) : p.Kept cfg (returnPlantFan cfg f p) := by
  have only : p.FsqOnly (p.setFan f { p.fan f with state := .off, cause := .none }) := .setFan p f _
  have keeps : p.KeepsOverride (p.setFan f { p.fan f with state := .off, cause := .none }) := .setFan fun h => h
  exact (only.kept fun h g => keeps g (h g)).trans (runPass_kept cfg _)

/-! ## Dampers and claim requests -/

/-- From one plant to another only dampers, claim lists, the fire order list and results with a noted change have
changed: what happens ahead of the statuses. -/
theorem refreshed_kept {cfg : Settings} {p q : Plant} (gal : q.gal = p.gal) (fsq : q.fsq = p.fsq) (noted : p.Noted q) :
    p.Kept cfg (refreshStatus cfg q) :=
  ⟨fun g _ => by rw [refreshStatus_gal, gal], noted.trans (refreshStatus_noted cfg q),
    fun h => (refreshStatus_kept cfg q).override fun f => by rw [Plant.fan, fsq]; exact h f,
    fun _ => refreshStatus_says cfg q⟩

theorem damperEvent_kept (cfg : Settings) (z : Zone) (f : Damper → Damper) (p : Plant) :
    p.Kept cfg (damperEvent cfg z f p) := by
  have first : p.Kept cfg (refreshStatus cfg (changeDamper z f p)) :=
    refreshed_kept (by simp) (by simp) (.of_zones (by simp) (changeDamper_events z f p .zoneChange))
  unfold damperEvent
  simp only
  split
  · exact first
  · exact first.trans (runPass_kept cfg _)

theorem retimeDampers_kept (cfg : Settings) (old new : Nat) (p : Plant) : p.Kept cfg (retimeDampers cfg old new p) :=
  .foldl (fun q z => damperEvent_kept cfg z _ q) Zone.all p

theorem ZoneResult.notedChange_eq_false {a b : ZoneResult} :
    a.notedChange b = false ↔ b.directive = a.directive ∧ b.demand = a.demand ∧ b.source = a.source := by
  simp only [notedChange, Bool.or_eq_false_iff, bne_eq_false_iff_eq, and_assoc]
  exact ⟨fun ⟨a, b, c⟩ => ⟨a.symm, b.symm, c.symm⟩, fun ⟨a, b, c⟩ => ⟨a.symm, b.symm, c.symm⟩⟩

/-- The results recomputed and handed on to the dampers raise ZONE-CHANGE for a change that is shown. -/
theorem commanded_noted (cfg : Settings) (p : Plant) : p.Noted (commanded cfg p) := by
  obtain ⟨same, _⟩ := commanded_spec cfg p
  refine ⟨same.events .zoneChange, ?_⟩
  by_cases noted : (Zone.all.any fun z =>
      (p.zones.get z).result.notedChange ((recomputeResults p).zones.get z).result) = true
  · refine .inl (?_ : (commanded cfg p).events.has .zoneChange = true)
    unfold commanded commandDampers
    obtain ⟨s, _⟩ := foldl_dampers
      (fun z => Damper.obey cfg.timers.travel ((resultOf (p.zones.get z).claims).directive == .opened))
      (fun z => decide ((p.zones.get z).result.directive = (resultOf (p.zones.get z).claims).directive))
      Zone.all Zone.all_nodup ((recomputeResults p).raiseIf
        (Zone.all.any fun z => (p.zones.get z).result.notedChange ((recomputeResults p).zones.get z).result) .zoneChange)
    have raised := s.events .zoneChange (by rw [Plant.has_raiseIf, noted]; rfl)
    simpa only [decide_eq_true_eq, recomputeResults, Plant.raiseIf_zones, PerZone.get_build] using raised
  · refine .inr fun z => ?_
    have quiet : (p.zones.get z).result.notedChange (resultOf (p.zones.get z).claims) = false := by
      have all := Bool.eq_false_iff.mpr noted
      simpa [recomputeResults] using List.any_eq_false.mp all z (Zone.mem_all z)
    obtain ⟨directive, demand, source⟩ := ZoneResult.notedChange_eq_false.mp quiet
    rw [same.zones]
    exact ⟨by simpa [recomputeResults] using directive, by simpa [recomputeResults] using demand,
      by simpa [recomputeResults] using source, by simp [recomputeResults]⟩

/-- A request that changed claim lists and the fire order list, handed on (R11). -/
theorem handOn_kept (cfg : Settings) {p q : Plant} (gal : q.gal = p.gal) (fsq : q.fsq = p.fsq)
    (events : p.events.zoneChange = true → q.events.zoneChange = true)
    (result : ∀ z, (q.zones.get z).result = (p.zones.get z).result)
    (status : ∀ z, (q.zones.get z).status = (p.zones.get z).status) : p.Kept cfg (handOn cfg q) := by
  obtain ⟨same, _⟩ := commanded_spec cfg q
  have noted : p.Noted q := ⟨events, .inr fun z => ⟨by rw [result], by rw [result], by rw [result], status z⟩⟩
  have first : p.Kept cfg (refreshStatus cfg (commanded cfg q)) :=
    refreshed_kept (same.gal.trans gal) (same.fsq.trans fsq) (noted.trans (commanded_noted cfg q))
  unfold handOn
  simp only
  split
  · exact first.trans (runPass_kept cfg _)
  · exact first

theorem setClaims_handOn_kept (cfg : Settings) (z : Zone) (l : List Claim) (p : Plant) :
    p.Kept cfg (handOn cfg (p.setClaims z l)) := by
  refine handOn_kept cfg rfl rfl (fun h => h) (fun y => ?_) (fun y => ?_) <;>
  · simp only [Plant.setClaims, PerZone.get_set]
    split
    · rename_i e
      rw [e]
    · rfl

theorem place_kept (cfg : Settings) (z : Zone) (c : Claim) (p : Plant) : p.Kept cfg (place cfg z c p) :=
  setClaims_handOn_kept cfg z _ p

theorem remove_kept (cfg : Settings) (z : Zone) (src : Source) (p : Plant) : p.Kept cfg (remove cfg z src p) :=
  setClaims_handOn_kept cfg z _ p

theorem fireUpdate_kept (cfg : Settings) (map : BitVec 8) (reset : Bool) (p : Plant) :
    p.Kept cfg (fireUpdate cfg map reset p) := by
  unfold fireUpdate
  simp only
  exact handOn_kept cfg (by simp) (by simp) (fun h => Plant.events_raiseIf _ _ _ .zoneChange h) (by simp) (by simp)

/-! ## The budget and the supply -/

theorem setBudgetInForce_kept (cfg : Settings) (cap : Option Nat) (p : Plant) :
    p.Kept cfg (setBudgetInForce cfg cap p) :=
  .of_alike rfl (fun _ => rfl) (fun _ _ => .refl _) (fun _ => rfl) (fun h => h) fun _ h => h

theorem budgetChange_kept (cfg : Settings) (cap : Option Nat) (p : Plant) : p.Kept cfg (budgetChange cfg cap p) := by
  unfold budgetChange
  simp only
  split
  · exact setBudgetInForce_kept cfg cap p
  · exact (setBudgetInForce_kept cfg cap p).trans (runPass_kept cfg _)

theorem supplyReport_kept (cfg : Settings) (cap : Option Nat) (p : Plant) : p.Kept cfg (supplyReport cfg cap p) :=
  (setBudgetInForce_kept cfg cap p).trans (runPass_kept cfg _)

theorem raise_kept (cfg : Settings) (p : Plant) (k : EventKind) : p.Kept cfg (p.raise k) :=
  .of_alike rfl (fun _ => rfl) (fun _ _ => .refl _) (fun _ => rfl) (fun h => h) (p.events_raise k)

theorem raiseIf_kept (cfg : Settings) (p : Plant) (b : Bool) (k : EventKind) : p.Kept cfg (p.raiseIf b k) := by
  cases b
  · exact .refl cfg p
  · exact raise_kept cfg p k

theorem spm_kept (cfg : Settings) (p : Plant) (x : Spm) : p.Kept cfg { p with spm := x } :=
  .of_alike rfl (fun _ => rfl) (fun _ _ => .refl _) (fun _ => rfl) (fun h => h) fun _ h => h

theorem FanRec.dropped_overrideOk {r : FanRec} (h : r.OverrideOk) : r.dropped.OverrideOk := by
  unfold FanRec.dropped
  simp only
  split
  · exact FanRec.release_overrideOk _ _
  · exact h

theorem enterHold_kept (cfg : Settings) (p : Plant) : p.Kept cfg (refreshStatus cfg (enterHold p)) :=
  (Plant.FsqOnly.of_fsq p _).kept fun h f => by
    have record : (enterHold p).fan f = (p.fan f).dropped := by simp [enterHold, Plant.fan]
    exact record ▸ FanRec.dropped_overrideOk (h f)

theorem enterTransfer_kept (cfg : Settings) (cap : Option Nat) (p : Plant) : p.Kept cfg (enterTransfer cfg cap p) :=
  (((spm_kept cfg p _).trans (enterHold_kept cfg _)).trans (supplyReport_kept cfg cap _)).trans (raise_kept cfg _ _)

theorem returnSupply_kept (cfg : Settings) (cap : Option Nat) (next : SupplyState) (p : Plant) :
    p.Kept cfg (returnSupply cfg cap next p) :=
  ((spm_kept cfg p _).trans (supplyReport_kept cfg cap _)).trans (raise_kept cfg _ _)

theorem closedTransition_kept (cfg : Settings) (cap : Option Nat) (p : Plant) :
    p.Kept cfg (closedTransition cfg cap p) :=
  ((spm_kept cfg p _).trans (supplyReport_kept cfg cap _)).trans (raise_kept cfg _ _)

theorem changeSupply_kept (cfg : Settings) (cap : Option Nat) (next : SupplyState) (p : Plant) :
    p.Kept cfg (changeSupply cfg cap next p) := by
  unfold changeSupply
  split
  case h_1 | h_2 | h_3 => exact .refl cfg p
  case h_4 | h_5 => exact enterTransfer_kept cfg cap p
  case h_6 | h_7 => exact returnSupply_kept cfg cap _ p
  case h_8 => exact closedTransition_kept cfg cap p
  case h_9 => exact (enterTransfer_kept cfg cap p).trans (returnSupply_kept cfg cap _ _)

theorem changeSupplyInput_kept (cfg : Settings) (cap : Option Nat) (i : SupplyInput) (b : Bool) (p : Plant) :
    p.Kept cfg (changeSupplyInput cfg cap i b p) :=
  (spm_kept cfg p _).trans (changeSupply_kept cfg cap _ _)

theorem endSettle_kept (cfg : Settings) (cap : Option Nat) (p : Plant) : p.Kept cfg (endSettle cfg cap p) := by
  have first : p.Kept cfg { p with spm := { p.spm with settle := none }, fsq := { p.fsq with hold := false } } :=
    .of_alike rfl (fun _ => rfl) (fun _ _ => .refl _) (fun _ => rfl) (fun h => h) fun _ h => h
  exact (first.trans (testQueue_kept cfg _)).trans (supplyReport_kept cfg cap _)

theorem retimeSettle_kept (cfg : Settings) (cap : Option Nat) (old new : Nat) (p : Plant) :
    p.Kept cfg (retimeSettle cfg cap old new p) := by
  unfold retimeSettle
  split
  · exact .refl cfg p
  · split
    · exact spm_kept cfg p _
    · exact endSettle_kept cfg cap p

end Sys2Proof.Machine

/-! Which operations on the plant leave every claim where it was, and what a placement or a removal does to the claims of
each source. -/

namespace Sys2Proof.Machine

/-! ## Operations that move no claim -/

/-- Claim lists, results and the fire order list are as they were. -/
structure Plant.SameClaims (p q : Plant) : Prop where
  claims : ∀ z, (q.zones.get z).claims = (p.zones.get z).claims
  result : ∀ z, (q.zones.get z).result = (p.zones.get z).result
  fireOrder : q.fireOrder = p.fireOrder

theorem Plant.SameClaims.refl (p : Plant) : p.SameClaims p := ⟨fun _ => rfl, fun _ => rfl, rfl⟩

theorem Plant.SameClaims.trans {p q r : Plant} (h : p.SameClaims q) (k : q.SameClaims r) : p.SameClaims r :=
  ⟨fun z => (k.claims z).trans (h.claims z), fun z => (k.result z).trans (h.result z), k.fireOrder.trans h.fireOrder⟩

theorem Plant.SameFireSide.sameClaims {p q : Plant} (h : p.SameFireSide q) : p.SameClaims q :=
  ⟨h.claims, h.result, h.fireOrder⟩

theorem FanChain.sameClaims {cfg : Settings} {p q : Plant} (h : FanChain cfg p q) : p.SameClaims q := h.same.sameClaims

theorem Plant.SameClaims.of_eq {p q : Plant} (zones : q.zones = p.zones) (fireOrder : q.fireOrder = p.fireOrder) :
    p.SameClaims q := ⟨fun _ => by rw [zones], fun _ => by rw [zones], fireOrder⟩

theorem Plant.SameClaims.foldl {α : Type} {f : Plant → α → Plant} (h : ∀ (p : Plant) a, p.SameClaims (f p a))
    (l : List α) (p : Plant) : p.SameClaims (l.foldl f p) := by
  induction l generalizing p with
  | nil => exact .refl p
  | cons a l ih => exact (h p a).trans (ih _)

/-- A change that touches neither zones nor the fire order list, and then moves of the fan side. -/
theorem FanChain.sameClaims_of {cfg : Settings} (p : Plant) {p' q : Plant} (h : FanChain cfg p' q) (zones : p'.zones = p.zones)
    (fireOrder : p'.fireOrder = p.fireOrder) : p.SameClaims q :=
  (Plant.SameClaims.of_eq zones fireOrder).trans h.same.sameClaims

theorem changeDriveInput_sameClaims (cfg : Settings) (f : Fan) (i : DriveInput) (b : Bool) (p : Plant) :
    p.SameClaims (changeDriveInput cfg f i b p) := by
  by_cases h : (p.fan f).level i = b
  · simp only [changeDriveInput, h, if_true]
    exact .refl p
  · exact FanChain.sameClaims_of p (changeDriveInput_chain cfg f i b p h) rfl rfl

theorem airflowLost_sameClaims (cfg : Settings) (f : Fan) (p : Plant) : p.SameClaims (airflowLost cfg f p) := by
  by_cases h : (p.fan f).state = .running
  · exact FanChain.sameClaims_of p (airflowLost_chain cfg f p h) rfl rfl
  · simp only [airflowLost, h, if_false]
    exact .refl p

theorem lockPlantFan_sameClaims (cfg : Settings) (f : Fan) (p : Plant) : p.SameClaims (lockPlantFan cfg f p) := by
  have later (q : Plant) : FanChain cfg q (takeReport cfg (refreshStatus cfg q) f) :=
    (refreshStatus_chain cfg q).trans (takeReport_chain cfg _ f)
  unfold lockPlantFan
  simp only
  split
  · have left := Plant.FsqOnly.leave p f
    exact FanChain.sameClaims_of p (later _) left.zones left.fireOrder
  · exact FanChain.sameClaims_of p (later _) rfl rfl

theorem returnPlantFan_sameClaims (cfg : Settings) (f : Fan) (p : Plant) : p.SameClaims (returnPlantFan cfg f p) :=
  FanChain.sameClaims_of p ((refreshStatus_chain cfg _).trans (runPass_chain cfg _)) rfl rfl

theorem damperEvent_sameClaims (cfg : Settings) (z : Zone) (f : Damper → Damper) (p : Plant) :
    p.SameClaims (damperEvent cfg z f p) := by
  have first := refreshStatus_chain cfg (changeDamper z f p)
  unfold damperEvent
  simp only
  split
  · exact FanChain.sameClaims_of p first (by simp) (by simp)
  · exact FanChain.sameClaims_of p (first.trans (runPass_chain cfg _)) (by simp) (by simp)

theorem retimeDampers_sameClaims (cfg : Settings) (old new : Nat) (p : Plant) :
    p.SameClaims (retimeDampers cfg old new p) :=
  .foldl (fun q z => damperEvent_sameClaims cfg z _ q) Zone.all p

theorem budgetChange_sameClaims (cfg : Settings) (cap : Option Nat) (p : Plant) :
    p.SameClaims (budgetChange cfg cap p) := by
  unfold budgetChange
  simp only
  split
  · exact .of_eq rfl rfl
  · exact FanChain.sameClaims_of p (runPass_chain cfg _) rfl rfl

theorem supplyReport_sameClaims (cfg : Settings) (cap : Option Nat) (p : Plant) :
    p.SameClaims (supplyReport cfg cap p) :=
  FanChain.sameClaims_of p (runPass_chain cfg (setBudgetInForce cfg cap p)) rfl rfl

theorem Plant.SameClaims.raise (p : Plant) (k : EventKind) : p.SameClaims (p.raise k) := .of_eq rfl rfl

/-- A report of the supply monitor, after a change that touches no claim and before the event it raises. -/
theorem supplyReport_raise_sameClaims (cfg : Settings) (cap : Option Nat) {p p' : Plant} (h : p.SameClaims p')
    (k : EventKind) : p.SameClaims ((supplyReport cfg cap p').raise k) :=
  (h.trans (supplyReport_sameClaims cfg cap p')).trans (.raise _ k)

theorem enterTransfer_sameClaims (cfg : Settings) (cap : Option Nat) (p : Plant) :
    p.SameClaims (enterTransfer cfg cap p) :=
  have dropped : p.SameClaims p.dropped := .of_eq rfl rfl
  supplyReport_raise_sameClaims cfg cap (dropped.trans (refreshStatus_chain cfg p.dropped).same.sameClaims) .supplyChange

theorem returnSupply_sameClaims (cfg : Settings) (cap : Option Nat) (next : SupplyState) (p : Plant) :
    p.SameClaims (returnSupply cfg cap next p) := by
  have back : p.SameClaims { p with spm := { p.spm with state := next, settle := some cfg.timers.settle } } := .of_eq rfl rfl
  exact supplyReport_raise_sameClaims cfg cap back .supplyChange

theorem closedTransition_sameClaims (cfg : Settings) (cap : Option Nat) (p : Plant) :
    p.SameClaims (closedTransition cfg cap p) := by
  have mains : p.SameClaims { p with spm := { p.spm with state := .mains } } := .of_eq rfl rfl
  exact supplyReport_raise_sameClaims cfg cap mains .supplyChange

theorem changeSupply_sameClaims (cfg : Settings) (cap : Option Nat) (next : SupplyState) (p : Plant) :
    p.SameClaims (changeSupply cfg cap next p) := by
  unfold changeSupply
  split
  case h_1 | h_2 | h_3 => exact .refl p
  case h_4 | h_5 => exact enterTransfer_sameClaims cfg cap p
  case h_6 | h_7 => exact returnSupply_sameClaims cfg cap _ p
  case h_8 => exact closedTransition_sameClaims cfg cap p
  case h_9 => exact (enterTransfer_sameClaims cfg cap p).trans (returnSupply_sameClaims cfg cap _ _)

theorem changeSupplyInput_sameClaims (cfg : Settings) (cap : Option Nat) (i : SupplyInput) (b : Bool) (p : Plant) :
    p.SameClaims (changeSupplyInput cfg cap i b p) := by
  have h := changeSupply_sameClaims cfg cap (decodeSupply (p.spm.setLevel i b).mainsHealthy
    (p.spm.setLevel i b).generatorOnline) { p with spm := p.spm.setLevel i b }
  exact ⟨h.claims, h.result, h.fireOrder⟩

theorem endSettle_sameClaims (cfg : Settings) (cap : Option Nat) (p : Plant) : p.SameClaims (endSettle cfg cap p) := by
  have tested := testQueue_chain cfg { p with spm := { p.spm with settle := none }, fsq := { p.fsq with hold := false } }
  exact (FanChain.sameClaims_of p tested rfl rfl).trans (supplyReport_sameClaims cfg cap _)

theorem retimeSettle_sameClaims (cfg : Settings) (cap : Option Nat) (old new : Nat) (p : Plant) :
    p.SameClaims (retimeSettle cfg cap old new p) := by
  unfold retimeSettle
  split
  · exact .refl p
  · split
    · exact .of_eq rfl rfl
    · exact endSettle_sameClaims cfg cap p

/-! ## The claims of the sources that keep a record -/

/-- The sources that keep a record of what they hold: panel, fume evaluator, controller and clock. -/
def Source.recorded : List Source := [.panel, .gas, .bms, .schedule]

/-- The claims of every source that keeps a record are as they were. -/
def Plant.SameRecorded (p q : Plant) : Prop :=
  ∀ src ∈ Source.recorded, ∀ z, claimOf src (q.zones.get z).claims = claimOf src (p.zones.get z).claims

theorem Plant.SameClaims.sameRecorded {p q : Plant} (h : p.SameClaims q) : p.SameRecorded q :=
  fun _ _ z => by rw [h.claims]

theorem Plant.OnlySource.sameRecorded {src : Source} {p q : Plant} (h : p.OnlySource src q)
    (other : src ∉ Source.recorded) : p.SameRecorded q :=
  fun _ hx z => h.claimOf (fun e => other (e ▸ hx)) z

theorem claimOf_placeIn_other {src : Source} {c : Claim} (h : src ≠ c.source) (l : List Claim) :
    claimOf src (placeIn c l) = claimOf src l := by
  rw [← claimOf_withoutSource h, withoutSource_placeIn rfl, claimOf_withoutSource h]

theorem claimOf_alignFireLink {src : Source} (h : src ≠ .fireLink) (was now : Bool) (l : List Claim) :
    claimOf src (alignFireLink was now l) = claimOf src l := by
  cases was <;> cases now
  · rfl
  · exact claimOf_placeIn_other h l
  · exact claimOf_withoutSource h l
  · rfl

theorem claimOf_alignAdjacency {src : Source} (h : src ≠ .adjacency) (origins : List Zone) (l : List Claim) :
    claimOf src (alignAdjacency origins l) = claimOf src l := by
  have placed (o : List Zone) : claimOf src (placeIn (adjacencyClaim o) l) = claimOf src l :=
    claimOf_placeIn_other h l
  unfold alignAdjacency
  split
  · rfl
  · exact claimOf_withoutSource h l
  · split
    · rfl
    · exact placed _
  · exact placed _

/-- The claim lists and the fire order list that a fire update makes, before the results are handed on (R14, R16, R21). -/
def fireClaims (cfg : Settings) (map : BitVec 8) (reset : Bool) (p : Plant) (z : Zone) : List Claim :=
  let old := activeZones cfg.zones.originLimit p.fireOrder
  let new := activeZones cfg.zones.originLimit (updateFireOrder map reset p.fireOrder)
  let l := alignFireLink (old.contains z) (new.contains z) (p.zones.get z).claims
  if old = new then l else alignAdjacency (originsOf cfg.zones new z) l

/-- What a fire update does (R14 to R16, R18, R21). -/
theorem fireUpdate_spec (cfg : Settings) (map : BitVec 8) (reset : Bool) (p : Plant) :
    (∀ z, ((fireUpdate cfg map reset p).zones.get z).claims = fireClaims cfg map reset p z) ∧
      (fireUpdate cfg map reset p).fireOrder = updateFireOrder map reset p.fireOrder ∧
      (fireUpdate cfg map reset p).spm = p.spm ∧
      (updateFireOrder map reset p.fireOrder ≠ p.fireOrder →
        (fireUpdate cfg map reset p).events.has .fireChange = true) := by
  unfold fireUpdate
  simp only
  have h := handOn_spec cfg (({ p with
    fireOrder := updateFireOrder map reset p.fireOrder
    zones := .build fun z => { p.zones.get z with claims := fireClaims cfg map reset p z } } : Plant).raiseIf
      (updateFireOrder map reset p.fireOrder != p.fireOrder) .fireChange)
  refine ⟨fun z => (h.claims z).trans (by simp), h.fireOrder.trans (by simp), h.spm.trans (by simp), fun changed => ?_⟩
  exact h.events .fireChange (by simp [changed])

theorem fireUpdate_sameRecorded (cfg : Settings) (map : BitVec 8) (reset : Bool) (p : Plant) :
    p.SameRecorded (fireUpdate cfg map reset p) := by
  intro src own z
  have link : src ≠ .fireLink := by rintro rfl; exact absurd own (by decide)
  have adjacency : src ≠ .adjacency := by rintro rfl; exact absurd own (by decide)
  rw [(fireUpdate_spec cfg map reset p).1]
  simp only [fireClaims]
  split
  · exact claimOf_alignFireLink link ..
  · rw [claimOf_alignAdjacency adjacency, claimOf_alignFireLink link]

/-! ## Placements and removals -/

theorem place_claimOf (cfg : Settings) (z y : Zone) (c : Claim) (p : Plant) :
    claimOf c.source ((place cfg z c p).zones.get y).claims =
      if y = z then some c else claimOf c.source (p.zones.get y).claims := by
  have h := place_spec cfg z c p
  split
  · rename_i e
    rw [e, h.claims, claimOf_placeIn_self]
  · rename_i e
    rw [h.others y e]

theorem remove_claimOf (cfg : Settings) (z y : Zone) (src : Source) (p : Plant) :
    claimOf src ((remove cfg z src p).zones.get y).claims =
      if y = z then none else claimOf src (p.zones.get y).claims := by
  have h := remove_spec cfg z src p
  split
  · rename_i e
    rw [e, h.claims, claimOf_withoutSource_self]
  · rename_i e
    rw [h.others y e]

end Sys2Proof.Machine

/-! What the sources that keep a record do to the state: each of their requests changes the plant and their own record of
claims held, and leaves the two in agreement. -/

namespace Sys2Proof.Machine

/-! ## The claims held, by source -/

/-- The claim that a source holds in a zone by its own record; none for a source that keeps no record. -/
def State.held (s : State) (src : Source) (z : Zone) : Option Claim :=
  match src with
  | .panel => (s.pif.held.get z).map panelClaim
  | .gas => (s.fev.zones.get z).gas.map gasClaim
  | .bms => (s.bli.held.get z).map bmsClaim
  | .schedule => (s.dck.held.get z).map scheduleClaim
  | _ => none

theorem State.sourcesAgree_iff (s : State) : s.SourcesAgree ↔
    ∀ src ∈ Source.recorded, ∀ z, claimOf src (s.plant.zones.get z).claims = s.held src z := by
  simp only [State.SourcesAgree, Source.recorded, List.forall_mem_cons, List.not_mem_nil, false_imp_iff, implies_true,
    and_true, State.held, forall_and]

/-- From `s` to `t`, only claims of one source came or went, and nothing but the plant and that source's record of them
(with FEV's run-ons) was touched; record and claim table agree after it if they agreed before. -/
structure State.Handed (src : Source) (s t : State) : Prop where
  only : t = { s with
    plant := t.plant
    fev := { s.fev with zones := t.fev.zones }
    pif := { s.pif with held := t.pif.held }
    dck := { s.dck with held := t.dck.held }
    bli := { s.bli with held := t.bli.held } }
  fev : src ≠ .gas → t.fev = s.fev
  pif : src ≠ .panel → t.pif = s.pif
  dck : src ≠ .schedule → t.dck = s.dck
  bli : src ≠ .bms → t.bli = s.bli
  claims : s.plant.OnlySource src t.plant
  kept : s.plant.Kept s.cfg t.plant
  sources : s.SourcesAgree → t.SourcesAgree

theorem State.Handed.sst {src : Source} {s t : State} (h : s.Handed src t) : t.sst = s.sst := by rw [h.only]

theorem State.Handed.refl (src : Source) (s : State) : s.Handed src s :=
  ⟨rfl, fun _ => rfl, fun _ => rfl, fun _ => rfl, fun _ => rfl, .refl src s.plant, .refl _ _, id⟩

theorem State.Handed.trans {src : Source} {s t u : State} (h : s.Handed src t) (k : t.Handed src u) :
    s.Handed src u where
  only := by rw [k.only, h.only]
  fev n := (k.fev n).trans (h.fev n)
  pif n := (k.pif n).trans (h.pif n)
  dck n := (k.dck n).trans (h.dck n)
  bli n := (k.bli n).trans (h.bli n)
  claims := h.claims.trans k.claims
  kept := h.kept.trans (by rw [← show t.cfg = s.cfg by rw [State.cfg, h.sst]]; exact k.kept)
  sources x := k.sources (h.sources x)

theorem State.Handed.foldl {α : Type} {src : Source} {f : State → α → State} (h : ∀ (s : State) a, s.Handed src (f s a))
    (l : List α) (s : State) : s.Handed src (l.foldl f s) := by
  induction l generalizing s with
  | nil => exact .refl src s
  | cons a l ih => exact (h s a).trans (ih _)

/-- A placement, or the removal, of one zone's claim that its source records as it sends it. -/
theorem State.Handed.of_request {src : Source} {z : Zone} {w : Option Claim} {s t : State}
    (claims : s.plant.OnlySource src t.plant) (kept : s.plant.Kept s.cfg t.plant)
    (placed : ∀ y, claimOf src (t.plant.zones.get y).claims =
      if y = z then w else claimOf src (s.plant.zones.get y).claims)
    (recorded : ∀ y, t.held src y = if y = z then w else s.held src y)
    (only : t = { s with
      plant := t.plant
      fev := { s.fev with zones := t.fev.zones }
      pif := { s.pif with held := t.pif.held }
      dck := { s.dck with held := t.dck.held }
      bli := { s.bli with held := t.bli.held } } := by rfl)
    (fev : src ≠ .gas → t.fev = s.fev := by simp) (pif : src ≠ .panel → t.pif = s.pif := by simp)
    (dck : src ≠ .schedule → t.dck = s.dck := by simp) (bli : src ≠ .bms → t.bli = s.bli := by simp) :
    s.Handed src t where
  only := only
  fev := fev
  pif := pif
  dck := dck
  bli := bli
  claims := claims
  kept := kept
  sources h := by
    rw [State.sourcesAgree_iff] at h ⊢
    intro x hx y
    by_cases e : x = src
    · subst e
      rw [placed, recorded, h x hx]
    · have other : t.held x y = s.held x y := by
        cases x with
        | panel => simp only [State.held, pif (Ne.symm e)]
        | gas => simp only [State.held, fev (Ne.symm e)]
        | bms => simp only [State.held, bli (Ne.symm e)]
        | schedule => simp only [State.held, dck (Ne.symm e)]
        | fireLink | fireContact | adjacency => rfl
      rw [claims.claimOf e, other, h x hx]

/-! ## The contact claims -/

/-- Claims of a source that keeps no record come and go without touching any record. -/
theorem State.Handed.of_unrecorded {src : Source} {s : State} {p : Plant} (unrecorded : src ∉ Source.recorded)
    (claims : s.plant.OnlySource src p) (kept : s.plant.Kept s.cfg p) : s.Handed src { s with plant := p } where
  only := rfl
  fev _ := rfl
  pif _ := rfl
  dck _ := rfl
  bli _ := rfl
  claims := claims
  kept := kept
  sources h := by
    rw [State.sourcesAgree_iff] at h ⊢
    intro x hx z
    exact (claims.sameRecorded unrecorded x hx z).trans (h x hx z)

theorem State.placeContact_handed (s : State) : s.Handed .fireContact s.placeContact :=
  .foldl (fun s z => .of_unrecorded (by decide) (place_onlySource s.cfg z fireContactClaim s.plant)
    (place_kept s.cfg z _ s.plant)) _ s

theorem State.removeContact_handed (s : State) : s.Handed .fireContact s.removeContact :=
  .foldl (fun s z => .of_unrecorded (by decide) (remove_onlySource s.cfg z .fireContact s.plant)
    (remove_kept s.cfg z _ s.plant)) _ s

/-! ## The panel -/

theorem State.placePanel_handed (s : State) (z : Zone) : s.Handed .panel (s.placePanel z) := by
  unfold State.placePanel
  split
  case h_1 k _ =>
    refine .of_request (z := z) (w := some (panelClaim k)) (place_onlySource s.cfg z (panelClaim k) s.plant)
      (place_kept s.cfg z _ s.plant) (place_claimOf s.cfg z · (panelClaim k) s.plant) fun y => ?_
    simp only [State.held, State.place_pif, State.holdPanel_pif, PerZone.get_set]
    split <;> rfl
  case h_2 => exact .refl _ s

theorem State.removePanel_handed (s : State) (z : Zone) : s.Handed .panel (s.removePanel z) := by
  unfold State.removePanel
  split
  · refine .of_request (z := z) (w := none) (remove_onlySource s.cfg z .panel s.plant) (remove_kept s.cfg z _ s.plant)
      (remove_claimOf s.cfg z · .panel s.plant) fun y => ?_
    simp only [State.held, State.remove_pif, State.holdPanel_pif, PerZone.get_set]
    split <;> rfl
  · exact .refl _ s

/-! ## The controller -/

theorem State.claimBms_handed (s : State) (z : Zone) (k : ClaimKind) : s.Handed .bms (s.claimBms z k) := by
  refine .of_request (z := z) (w := some (bmsClaim k)) (place_onlySource s.cfg z (bmsClaim k) s.plant)
    (place_kept s.cfg z _ s.plant) (place_claimOf s.cfg z · (bmsClaim k) s.plant) fun y => ?_
  simp only [State.claimBms, State.held, State.place_bli, State.holdBms_bli, PerZone.get_set]
  split <;> rfl

theorem State.releaseBms_handed (s : State) (z : Zone) : s.Handed .bms (s.releaseBms z) := by
  unfold State.releaseBms
  split
  · refine .of_request (z := z) (w := none) (remove_onlySource s.cfg z .bms s.plant) (remove_kept s.cfg z _ s.plant)
      (remove_claimOf s.cfg z · .bms s.plant) fun y => ?_
    simp only [State.held, State.remove_bli, State.holdBms_bli, PerZone.get_set]
    split <;> rfl
  · exact .refl _ s

/-! ## The windows -/

theorem State.alignSchedule_handed (s : State) (z : Zone) : s.Handed .schedule (s.alignSchedule z) := by
  unfold State.alignSchedule
  simp only
  split
  · exact .refl _ s
  · split
    case h_1 d e =>
      refine .of_request (z := z) (w := some (scheduleClaim d)) (place_onlySource s.cfg z (scheduleClaim d) s.plant)
        (place_kept s.cfg z _ s.plant) (place_claimOf s.cfg z · (scheduleClaim d) s.plant) fun y => ?_
      simp only [State.held, State.place_dck, State.holdSchedule_dck, PerZone.get_set, e]
      split <;> rfl
    case h_2 =>
      refine .of_request (z := z) (w := none) (remove_onlySource s.cfg z .schedule s.plant)
        (remove_kept s.cfg z _ s.plant) (remove_claimOf s.cfg z · .schedule s.plant) fun y => ?_
      simp only [State.held, State.remove_dck, State.holdSchedule_dck, PerZone.get_set]
      split <;> rfl

theorem State.evaluateWindows_handed (s : State) : s.Handed .schedule s.evaluateWindows :=
  .foldl State.alignSchedule_handed Zone.all s

/-! ## The fume evaluator -/

theorem State.sendGas_handed (s : State) (z : Zone) (w : Option GasClaim) : s.Handed .gas (s.sendGas z w) := by
  unfold State.sendGas
  simp only
  split
  · exact .refl _ s
  · split
    case h_1 g _ =>
      refine .of_request (z := z) (w := some (gasClaim g)) (place_onlySource s.cfg z (gasClaim g) s.plant)
        (place_kept s.cfg z _ s.plant) (place_claimOf s.cfg z · (gasClaim g) s.plant) fun y => ?_
      simp only [State.held, State.place_fev, State.setZoneEval, PerZone.get_set]
      split <;> rfl
    case h_2 =>
      refine .of_request (z := z) (w := none) (remove_onlySource s.cfg z .gas s.plant) (remove_kept s.cfg z _ s.plant)
        (remove_claimOf s.cfg z · .gas s.plant) fun y => ?_
      simp only [State.held, State.remove_fev, State.setZoneEval, PerZone.get_set]
      split <;> rfl

theorem State.setRunOn_handed (s : State) (z : Zone) (t : Option Nat) : s.Handed .gas (s.setRunOn z t) where
  only := rfl
  fev n := absurd rfl n
  pif _ := rfl
  dck _ := rfl
  bli _ := rfl
  claims := .refl _ _
  kept := .refl _ _
  sources h := by
    rw [State.sourcesAgree_iff] at h ⊢
    intro x hx y
    have same : (s.setRunOn z t).held x y = s.held x y := by
      cases x with
      | gas =>
        simp only [State.held, State.setRunOn, State.setZoneEval, PerZone.get_set]
        split
        · rename_i e
          rw [e]
        · rfl
      | panel | bms | schedule | fireLink | fireContact | adjacency => rfl
    rw [same]
    exact h x hx y

theorem State.recomputeZone_handed (s : State) (z : Zone) (b : Bool) : s.Handed .gas (s.recomputeZone z b) := by
  unfold State.recomputeZone
  split
  · exact (s.setRunOn_handed z none).trans (State.sendGas_handed _ z _)
  · split
    · exact (s.setRunOn_handed z none).trans (State.sendGas_handed _ z _)
    · split
      · exact .refl _ s
      · exact s.sendGas_handed z _
      · split
        · exact (s.setRunOn_handed z _).trans (State.sendGas_handed _ z _)
        · exact s.sendGas_handed z none

theorem State.recomputeChannelZone_handed (s : State) (c : Channel) : s.Handed .gas (s.recomputeChannelZone c) := by
  unfold State.recomputeChannelZone
  split
  · exact s.recomputeZone_handed _ true
  · exact .refl _ s

theorem State.fevZone_handed (old : ChannelsBlock) (s : State) (z : Zone) : s.Handed .gas (State.fevZone old s z) := by
  unfold State.fevZone
  split
  · exact s.recomputeZone_handed z true
  · split
    · exact (s.setRunOn_handed z _).trans (State.recomputeZone_handed _ z true)
    · exact (s.setRunOn_handed z none).trans (State.recomputeZone_handed _ z false)

end Sys2Proof.Machine

/-! What every handling keeps: the properties of a state that the step lemmas speak of, as one relation from the state
before to the state after, and each operation of sensing, links, panel, clock and store shown to meet it. -/

namespace Sys2Proof.Machine

/-! ## The relation -/

/-- From `s` to `t` the mode and the waiting commands are as they were, a change that the masters are told of raises
ZONE-CHANGE, and each property of a state that a step keeps is kept. -/
structure State.Keeps (s t : State) : Prop where
  mode : t.mode = s.mode
  pending : t.pending = s.pending
  noted : s.plant.Noted t.plant
  override : s.plant.OverrideOk → t.plant.OverrideOk
  statuses : s.StatusesOk → t.StatusesOk
  duty : s.DutyOk → t.DutyOk
  sources : s.SourcesAgree → t.SourcesAgree
  inhibits : s.InhibitsOk → t.InhibitsOk
  readings : s.ReadingsOk → t.ReadingsOk
  receive : s.ReceiveOk → t.ReceiveOk
  clock : s.ClockOk → t.ClockOk

/-- A handling before its end: it keeps what every step keeps, the outputs that are set at the end are as they were, and
a commit whose write has completed goes on waiting. -/
structure State.Handles (s t : State) : Prop extends State.Keeps s t where
  waiting : ∀ b, s.sst.session = .committing b true → t.sst = s.sst
  pins : t.pins = s.pins

theorem State.Keeps.refl (s : State) : s.Keeps s :=
  ⟨rfl, rfl, .of_zones rfl fun h => h, id, id, id, id, id, id, id, id⟩

theorem State.Keeps.trans {s t u : State} (h : s.Keeps t) (k : t.Keeps u) : s.Keeps u :=
  ⟨k.mode.trans h.mode, k.pending.trans h.pending, h.noted.trans k.noted, k.override ∘ h.override,
    k.statuses ∘ h.statuses, k.duty ∘ h.duty, k.sources ∘ h.sources, k.inhibits ∘ h.inhibits, k.readings ∘ h.readings,
    k.receive ∘ h.receive, k.clock ∘ h.clock⟩

theorem State.Handles.refl (s : State) : s.Handles s := ⟨.refl s, fun _ _ => rfl, rfl⟩

theorem State.Handles.trans {s t u : State} (h : s.Handles t) (k : t.Handles u) : s.Handles u :=
  ⟨h.toKeeps.trans k.toKeeps, fun b e => (k.waiting b (by rw [h.waiting b e]; exact e)).trans (h.waiting b e),
    k.pins.trans h.pins⟩

theorem State.Handles.foldl {α : Type} {f : State → α → State} (h : ∀ (s : State) a, s.Handles (f s a))
    (l : List α) (s : State) : s.Handles (l.foldl f s) := by
  induction l generalizing s with
  | nil => exact .refl s
  | cons a l ih => exact (h s a).trans (ih _)

/-- The duty orders of a state whose plant keeps them as sets. -/
theorem State.DutyOk.of_kept {s t : State} (mode : t.mode = s.mode) (cfg : t.cfg = s.cfg)
    (kept : s.plant.Kept s.cfg t.plant) (h : s.DutyOk) : t.DutyOk := fun m g => by
  obtain ⟨nodup, mem⟩ := h (mode ▸ m) g
  have perm := kept.duty g nodup
  exact ⟨perm.nodup_iff.mpr nodup, fun f => by rw [perm.mem_iff, mem, cfg]⟩

/-- Most operations change the plant, within what it keeps, and a record or two: what remains to be shown is that the
change of the records meets the properties that speak of them. -/
theorem State.Handles.of_kept {s t : State} (kept : s.plant.Kept s.cfg t.plant)
    (mode : t.mode = s.mode := by rfl) (pending : t.pending = s.pending := by rfl) (cfg : t.cfg = s.cfg := by rfl)
    (sources : s.SourcesAgree → t.SourcesAgree := by exact fun h => h)
    (inhibits : s.InhibitsOk → t.InhibitsOk := by exact fun h => h)
    (readings : s.ReadingsOk → t.ReadingsOk := by exact fun h => h)
    (receive : s.ReceiveOk → t.ReceiveOk := by exact fun h => h)
    (clock : s.ClockOk → t.ClockOk := by exact fun h => h)
    (waiting : ∀ b, s.sst.session = .committing b true → t.sst = s.sst := by exact fun _ _ => rfl)
    (pins : t.pins = s.pins := by rfl) : s.Handles t where
  mode := mode
  pending := pending
  noted := kept.noted
  override := kept.override
  statuses h z := by rw [cfg]; exact kept.status h z
  duty := .of_kept mode cfg kept
  sources := sources
  inhibits := inhibits
  readings := readings
  receive := receive
  clock := clock
  waiting := waiting
  pins := pins

theorem Plant.SameRecorded.sources {s t : State} (h : s.plant.SameRecorded t.plant) (held : t.held = s.held)
    (agree : s.SourcesAgree) : t.SourcesAgree := by
  rw [State.sourcesAgree_iff] at agree ⊢
  intro src own z
  rw [h src own z, held, agree src own z]

/-- An operation on the plant alone that moves no claim of a source that keeps a record. -/
theorem State.Handles.of_plant {s : State} {p : Plant} (kept : s.plant.Kept s.cfg p) (same : s.plant.SameRecorded p) :
    s.Handles { s with plant := p } := .of_kept kept (sources := same.sources rfl)

theorem State.Handles.of_sameClaims {s : State} {p : Plant} (kept : s.plant.Kept s.cfg p) (same : s.plant.SameClaims p) :
    s.Handles { s with plant := p } := .of_plant kept same.sameRecorded

theorem State.Handed.handles {src : Source} {s t : State} (h : s.Handed src t) : s.Handles t := by
  refine .of_kept h.kept ?_ ?_ ?_ h.sources ?_ ?_ ?_ ?_ ?_ ?_ <;> rw [h.only]
  · exact id
  · exact id
  · exact id
  · exact id
  · exact fun _ _ => rfl

theorem State.raise_handles (s : State) (k : EventKind) : s.Handles (s.raise k) :=
  .of_sameClaims (raise_kept _ _ k) (.raise _ k)

/-! ## Readings -/

/-- A channel record and its evaluation record go together: the average is the ring's, a channel that is not counted has
a blank evaluation, and a delay runs exactly in A1-PENDING. -/
structure ReadingOk (r : ChannelRec) (e : ChannelEval) : Prop where
  average : r.average = (r.ring.map Ring.mean).getD 0
  blank : (r.condition == .active && r.ring.isSome) = false → e = .blank
  delay : e.delay.isSome = true ↔ e.alarm = .a1Pending

theorem State.readingsOk_iff (s : State) : s.ReadingsOk ↔ ∀ c, ReadingOk (s.channel c) (s.eval c) :=
  forall_congr' fun _ => ⟨fun ⟨average, blank, delay⟩ => ⟨average, blank, delay⟩,
    fun ⟨average, blank, delay⟩ => ⟨average, blank, delay⟩⟩

theorem ReadingOk.not_active {r : ChannelRec} {e : ChannelEval} (h : ReadingOk r e) (n : r.condition ≠ .active) :
    e = .blank := h.blank (by simp [n])

/-- A record that counts nothing goes with a blank evaluation. -/
theorem ReadingOk.of_blank {r : ChannelRec} (average : r.average = (r.ring.map Ring.mean).getD 0) : ReadingOk r .blank :=
  ⟨average, fun _ => rfl, by decide⟩

theorem alarmAfter_delay (set : ChannelSetting) (c : Nat) (e : ChannelEval)
    (h : e.delay.isSome = true ↔ e.alarm = .a1Pending) :
    (alarmAfter set c e).2.isSome = true ↔ (alarmAfter set c e).1 = .a1Pending := by
  unfold alarmAfter
  split
  · split
    · simp
    · split
      · split <;> simp
      · simp
  · rename_i pending
    split
    · simp
    · split
      · simpa [pending] using h
      · simp
  · split
    · simp
    · split <;> simp
  · split
    · simp
    · split <;> simp

theorem ReadingOk.evaluate {r : ChannelRec} {e : ChannelEval} (h : ReadingOk r e)
    (counted : (r.condition == .active && r.ring.isSome) = true) (set : ChannelSetting) (v c : Nat) :
    ReadingOk r (e.evaluate set v c) :=
  ⟨h.average, fun n => absurd counted (by simp [n]), alarmAfter_delay set c e h.delay⟩

theorem State.setReading_handles {s : State} {c : Channel} {r : ChannelRec} {e : ChannelEval}
    (h : ReadingOk (s.channel c) (s.eval c) → ReadingOk r e) : s.Handles ((s.setChannel c r).setEval c e) := by
  refine .of_kept (.refl _ _) (readings := fun ok => ?_)
  rw [State.readingsOk_iff] at ok ⊢
  intro d
  by_cases same : d = c
  · subst same
    have new : ((s.setChannel d r).setEval d e).channel d = r := State.setChannel_self s d r
    rw [State.setEval_self, new]
    exact h (ok d)
  · rw [State.setEval_other _ same]
    have kept : ((s.setChannel c r).setEval c e).channel d = s.channel d := State.setChannel_other s same r
    rw [kept]
    exact ok d

theorem State.setEval_eval (s : State) (c : Channel) : s.setEval c (s.eval c) = s := by
  cases c <;> rfl

theorem State.setChannel_channel (s : State) (c : Channel) : s.setChannel c (s.channel c) = s := by
  cases c <;> rfl

theorem State.setChannel_handles {s : State} {c : Channel} {r : ChannelRec}
    (h : ReadingOk (s.channel c) (s.eval c) → ReadingOk r (s.eval c)) : s.Handles (s.setChannel c r) := by
  have both := State.setReading_handles h
  exact (show (s.setChannel c r).setEval c (s.eval c) = s.setChannel c r from
    State.setEval_eval (s.setChannel c r) c) ▸ both

theorem State.setEval_handles {s : State} {c : Channel} {e : ChannelEval}
    (h : ReadingOk (s.channel c) (s.eval c) → ReadingOk (s.channel c) e) : s.Handles (s.setEval c e) := by
  have both := State.setReading_handles h
  rwa [State.setChannel_channel] at both

theorem State.evaluate_handles {s : State} {c : Channel} (counted : s.countedChannel c = true) :
    s.Handles (s.evaluate c) :=
  (State.setEval_handles fun h => h.evaluate counted _ _ _).trans
    (.of_sameClaims (raiseIf_kept _ _ _ _) (.of_eq (by simp) (by simp)))

theorem State.takeEntry_handles {s : State} {c : Channel} (counted : s.countedChannel c = true) :
    s.Handles (s.takeEntry c) :=
  (State.evaluate_handles counted).trans (State.recomputeChannelZone_handed _ c).handles

/-! ## Samples -/

section
variable {fs q v : Nat} {r : ChannelRec}

theorem ChannelRec.sample_unused (unused : r.condition = .unused) : r.sample fs q = (r, .nothing) := by
  simp [ChannelRec.sample, unused]

theorem ChannelRec.sample_faulted_out (used : r.condition ≠ .unused) (fault : r.faulted = true)
    (out : concentration fs q = none) :
    r.sample fs q = ({ r with raw := q, fresh := true, inRun := 0, outRun := Config.faultRun }, .nothing) := by
  simp [ChannelRec.sample, used, fault, out]

theorem ChannelRec.sample_faulted_in (used : r.condition ≠ .unused) (fault : r.faulted = true)
    (within : concentration fs q = some v) (run : r.inRun + 1 < Config.faultRun) :
    r.sample fs q = ({ r with raw := q, fresh := true, inRun := r.inRun + 1, outRun := 0 }, .nothing) := by
  simp [ChannelRec.sample, used, fault, within, Nat.not_le.mpr run]

theorem ChannelRec.sample_faulted_end (used : r.condition ≠ .unused) (fault : r.faulted = true)
    (within : concentration fs q = some v) (run : Config.faultRun ≤ r.inRun + 1) :
    r.sample fs q = (({ r with raw := q, fresh := true } : ChannelRec).endFault v, .faultEnded) := by
  simp [ChannelRec.sample, used, fault, within, run]

theorem ChannelRec.sample_sound_in (used : r.condition ≠ .unused) (sound : r.faulted = false)
    (within : concentration fs q = some v) :
    r.sample fs q = ({ ({ r with raw := q, fresh := true } : ChannelRec).enter v with outRun := 0 }, .entered) := by
  simp [ChannelRec.sample, used, sound, within]

theorem ChannelRec.sample_sound_out (used : r.condition ≠ .unused) (sound : r.faulted = false)
    (out : concentration fs q = none) (run : r.outRun + 1 < Config.faultRun) :
    r.sample fs q = ({ r with raw := q, fresh := true, outRun := r.outRun + 1 }, .nothing) := by
  simp [ChannelRec.sample, used, sound, out, Nat.not_le.mpr run]

theorem ChannelRec.sample_sound_confirm (used : r.condition ≠ .unused) (sound : r.faulted = false)
    (out : concentration fs q = none) (run : Config.faultRun ≤ r.outRun + 1) :
    r.sample fs q = (({ r with raw := q, fresh := true } : ChannelRec).confirmFault, .faultConfirmed) := by
  simp [ChannelRec.sample, used, sound, out, run]

end

/-- The conditions other than UNUSED in which no fault is present: ACTIVE, or INHIBITED. -/
theorem ChannelRec.sound_cases {r : ChannelRec} (used : r.condition ≠ .unused) (sound : r.faulted = false) :
    r.condition = .active ∨ r.condition = .inhibited := by
  cases h : r.condition <;> simp_all [ChannelRec.faulted]

theorem ChannelRec.faulted_not_active {r : ChannelRec} (fault : r.faulted = true) : r.condition ≠ .active := by
  intro h
  simp [ChannelRec.faulted, h] at fault

theorem State.countedChannel_of {s : State} {c : Channel} {r : ChannelRec} (condition : r.condition = .active)
    (ring : r.ring.isSome = true) : (s.setChannel c r).countedChannel c = true := by
  simp [State.countedChannel, condition, ring]

theorem State.Handed.channel {src : Source} {s t : State} (h : s.Handed src t) (c : Channel) :
    t.channel c = s.channel c := by rw [h.only]; rfl

theorem State.Handed.countedChannel {src : Source} {s t : State} (h : s.Handed src t) (c : Channel) :
    t.countedChannel c = s.countedChannel c := by simp only [State.countedChannel, h.channel]

/-- FEV takes the end of an evaluation: the record blank beside a channel record that counts nothing. -/
theorem State.stopEvaluation_handles {s : State} {c : Channel} {r : ChannelRec}
    (h : ReadingOk (s.channel c) (s.eval c) → r.average = (r.ring.map Ring.mean).getD 0) :
    s.Handles ((s.setChannel c r).stopEvaluation c) :=
  (State.setReading_handles fun ok => .of_blank (h ok)).trans (State.recomputeChannelZone_handed _ c).handles

theorem State.sample_handles (s : State) (c : Channel) (q : Nat) : s.Handles (s.sample c q) := by
  unfold State.sample
  simp only
  generalize (s.cfg.channels.channel.get c).fullScale = fs
  by_cases used : (s.channel c).condition = .unused
  · rw [ChannelRec.sample_unused used]
    exact State.setChannel_handles id
  cases fault : (s.channel c).faulted with
  | true =>
    have idle := ChannelRec.faulted_not_active fault
    cases within : concentration fs q with
    | none =>
      rw [ChannelRec.sample_faulted_out used fault within]
      exact State.setChannel_handles fun ok => ⟨ok.average, fun _ => ok.not_active idle, ok.delay⟩
    | some v =>
      by_cases run : Config.faultRun ≤ (s.channel c).inRun + 1
      · rw [ChannelRec.sample_faulted_end used fault within run]
        simp only
        have ended : s.Handles (s.setChannel c
            (({ s.channel c with raw := q, fresh := true } : ChannelRec).endFault v)) :=
          State.setChannel_handles fun ok => ⟨rfl, fun _ => ok.not_active idle, ok.delay⟩
        split
        · rename_i active
          have zone := State.recomputeChannelZone_handed (s.setChannel c
            (({ s.channel c with raw := q, fresh := true } : ChannelRec).endFault v)) c
          exact (ended.trans zone.handles).trans (State.takeEntry_handles
            ((zone.countedChannel c).trans (State.countedChannel_of active rfl)))
        · exact ended
      · rw [ChannelRec.sample_faulted_in used fault within (Nat.lt_of_not_le run)]
        exact State.setChannel_handles fun ok => ⟨ok.average, fun _ => ok.not_active idle, ok.delay⟩
  | false =>
    cases within : concentration fs q with
    | some v =>
      rw [ChannelRec.sample_sound_in used fault within]
      simp only
      have entered : s.Handles (s.setChannel c
          { ({ s.channel c with raw := q, fresh := true } : ChannelRec).enter v with outRun := 0 }) := by
        refine State.setChannel_handles fun ok => ⟨rfl, fun n => ok.blank ?_, ok.delay⟩
        simp_all [ChannelRec.enter]
      split
      · rename_i active
        exact entered.trans (State.takeEntry_handles (State.countedChannel_of active rfl))
      · exact entered
    | none =>
      by_cases run : Config.faultRun ≤ (s.channel c).outRun + 1
      · rw [ChannelRec.sample_sound_confirm used fault within run]
        simp only
        refine State.Handles.trans ?_ (State.raise_handles _ _)
        split
        · exact State.stopEvaluation_handles fun _ => rfl
        · rename_i held
          refine State.setChannel_handles fun ok => ⟨rfl, fun _ => ?_, ok.delay⟩
          obtain active | inhibited := ChannelRec.sound_cases used fault
          · simp [ChannelRec.confirmFault, active] at held
          · exact ok.not_active (by simp [inhibited])
      · rw [ChannelRec.sample_sound_out used fault within (Nat.lt_of_not_le run)]
        exact State.setChannel_handles fun ok => ⟨ok.average, ok.blank, ok.delay⟩

theorem State.convert_handles (s : State) (c : Channel) (q : Nat) : s.Handles (s.convert c q) := by
  unfold State.convert
  split
  · have scanned : s.Handles (s.scanTo c) := .of_kept (.refl _ _)
    exact scanned.trans (State.sample_handles _ c q)
  · exact .refl s

/-! ## The inhibit list -/

/-- What a step keeps of the inhibit list. -/
def InhibitsRanked (l : List Inhibit) : Prop :=
  l.length ≤ Config.maxInhibits ∧ (l.map Inhibit.channel).Nodup ∧ l.Pairwise (fun a b => a.remaining ≤ b.remaining)

theorem InhibitsRanked.filter {l : List Inhibit} (h : InhibitsRanked l) (keep : Inhibit → Bool) :
    InhibitsRanked (l.filter keep) :=
  ⟨(List.length_filter_le _ _).trans h.1, h.2.1.sublist (List.filter_sublist.map _), h.2.2.filter _⟩

theorem mem_enterInhibit {e x : Inhibit} {l : List Inhibit} : x ∈ enterInhibit e l ↔ x = e ∨ x ∈ l := by
  obtain ⟨before, after, rfl, entered, -, -⟩ := enterInhibit_split e l
  rw [entered]
  simp only [List.mem_append, List.mem_cons]
  tauto

theorem enterInhibit_perm (e : Inhibit) (l : List Inhibit) : (enterInhibit e l).Perm (e :: l) := by
  obtain ⟨before, after, rfl, entered, -, -⟩ := enterInhibit_split e l
  rw [entered]
  exact List.perm_middle

theorem InhibitsRanked.enter {l : List Inhibit} {e : Inhibit} (h : InhibitsRanked l) (room : l.length < Config.maxInhibits)
    (new : e.channel ∉ l.map Inhibit.channel) : InhibitsRanked (enterInhibit e l) := by
  obtain ⟨-, nodup, sorted⟩ := h
  refine ⟨?_, ?_, ?_⟩
  · rw [(enterInhibit_perm e l).length_eq]
    exact room
  · exact ((enterInhibit_perm e l).map _).nodup_iff.mpr (List.nodup_cons.mpr ⟨new, nodup⟩)
  · obtain ⟨before, after, rfl, entered, ahead, behind⟩ := enterInhibit_split e l
    rw [entered]
    obtain ⟨sortedBefore, sortedAfter, across⟩ := List.pairwise_append.mp sorted
    have least : ∀ x ∈ after, e.remaining ≤ x.remaining := by
      cases after with
      | nil => simp
      | cons y ys =>
        have first := behind y ys rfl
        have rest := (List.pairwise_cons.mp sortedAfter).1
        intro x hx
        rcases List.mem_cons.mp hx with rfl | hx
        · omega
        · have := rest x hx
          omega
    refine List.pairwise_append.mpr ⟨sortedBefore, List.pairwise_cons.mpr ⟨least, sortedAfter⟩, fun a ha b hb => ?_⟩
    rcases List.mem_cons.mp hb with rfl | hb
    · exact ahead a ha
    · exact across a ha b hb

theorem State.setInhibits_handles {s : State} {l : List Inhibit} (h : InhibitsRanked s.scn.inhibits → InhibitsRanked l) :
    s.Handles (s.setInhibits l) := .of_kept (.refl _ _) (inhibits := h)

theorem State.endInhibit_handles (s : State) (c : Channel) : s.Handles (s.endInhibit c) := by
  unfold State.endInhibit
  simp only
  split
  · exact State.stopEvaluation_handles fun ok => ok.average
  · have freed : s.Handles (s.setChannel c { s.channel c with condition := .active }) := by
      refine State.setChannel_handles fun ok => ⟨ok.average, fun n => ok.blank ?_, ok.delay⟩
      simp_all
    split
    · rename_i ring
      exact freed.trans (State.takeEntry_handles (State.countedChannel_of rfl ring))
    · exact freed.trans (State.recomputeChannelZone_handed _ c).handles

theorem State.not_listed {s : State} {c : Channel} (h : s.listed c = false) : c ∉ s.scn.inhibits.map Inhibit.channel := by
  simpa [State.listed] using h

theorem State.startInhibit_handles {s : State} {c : Channel} (d : Nat) (new : s.listed c = false)
    (room : s.scn.inhibits.length < Config.maxInhibits) : s.Handles (s.startInhibit c d) := by
  have entered : s.Handles (s.setInhibits (enterInhibit { channel := c, remaining := d } s.scn.inhibits)) :=
    State.setInhibits_handles fun h => h.enter room (State.not_listed new)
  exact entered.trans (State.stopEvaluation_handles fun ok => ok.average)

theorem withoutChannel_length_lt {c : Channel} {l : List Inhibit} (h : c ∈ l.map Inhibit.channel) :
    (withoutChannel c l).length < l.length := by
  obtain ⟨e, mem, rfl⟩ := List.mem_map.mp h
  exact List.length_filter_lt_length_iff_exists.mpr ⟨e, mem, by simp⟩

theorem not_mem_withoutChannel (c : Channel) (l : List Inhibit) : c ∉ (withoutChannel c l).map Inhibit.channel := by
  simp [withoutChannel]

theorem State.renewInhibit_handles {s : State} {c : Channel} (d : Nat) (listed : s.listed c = true) :
    s.Handles (s.renewInhibit c d) := by
  refine State.setInhibits_handles fun h => (h.filter _).enter ?_ (not_mem_withoutChannel c _)
  have mem : c ∈ s.scn.inhibits.map Inhibit.channel := by simpa [State.listed] using listed
  exact lt_of_lt_of_le (withoutChannel_length_lt mem) h.1

theorem State.leaveInhibits_handles (s : State) (c : Channel) :
    s.Handles ((s.setInhibits (withoutChannel c s.scn.inhibits)).endInhibit c) := by
  have left : s.Handles (s.setInhibits (withoutChannel c s.scn.inhibits)) :=
    State.setInhibits_handles fun h => h.filter _
  exact left.trans (State.endInhibit_handles _ c)

theorem State.expireInhibit_handles (s : State) (c : Channel) : s.Handles (s.expireInhibit c) := by
  unfold State.expireInhibit
  split
  · exact s.leaveInhibits_handles c
  · exact .refl s

theorem State.expireDelay_handles (s : State) (c : Channel) : s.Handles (s.expireDelay c) := by
  unfold State.expireDelay
  simp only
  split
  · rename_i due
    obtain ⟨pending, -⟩ := due
    refine State.Handles.trans (State.setEval_handles fun ok => ⟨ok.average, fun n => ?_, by simp⟩)
      (State.raise_handles _ _)
    rw [ok.blank n] at pending
    cases pending
  · exact .refl s

theorem State.expireRunOn_handles (s : State) (z : Zone) : s.Handles (s.expireRunOn z) := by
  unfold State.expireRunOn
  split
  · exact ((s.setRunOn_handed z none).trans (State.recomputeZone_handed _ z false)).handles
  · exact .refl s

/-! ## The clock -/

/-- What a step keeps of the clock record. -/
def Dck.InRange (c : Dck) : Prop :=
  1 ≤ c.day ∧ c.day ≤ 7 ∧ c.minute ≤ 1439 ∧ c.second ≤ 59 ∧
    (c.isSet = false → c.day = 1 ∧ c.minute = 0 ∧ c.second = 0)

@[simp] theorem Dck.nextMinute_isSet (c : Dck) : c.nextMinute.isSet = c.isSet := by
  unfold Dck.nextMinute
  split <;> rfl

@[simp] theorem Dck.nextMinute_held (c : Dck) : c.nextMinute.held = c.held := by
  unfold Dck.nextMinute
  split <;> rfl

theorem Dck.InRange.nextMinute {c : Dck} (h : c.InRange) (set : c.isSet = true) : c.nextMinute.InRange := by
  obtain ⟨low, high, minute, -, -⟩ := h
  unfold Dck.nextMinute Dck.InRange
  split
  · simp only [set, Bool.true_eq_false, false_imp_iff, and_true]
    split <;> omega
  · simp only [set, Bool.true_eq_false, false_imp_iff, and_true]
    omega

theorem State.setClock_handles {s : State} {c : Dck} (held : c.held = s.dck.held) (h : s.dck.InRange → c.InRange) :
    s.Handles { s with dck := c } := by
  refine .of_kept (.refl _ _) (clock := h) (sources := fun agree z => ?_)
  obtain ⟨panel, gas, bms, schedule⟩ := agree z
  exact ⟨panel, gas, bms, by rw [held]; exact schedule⟩

theorem State.minuteBoundary_handles (s : State) : s.Handles s.minuteBoundary := by
  unfold State.minuteBoundary
  split
  · rename_i due
    have counted : s.Handles { s with dck := s.dck.nextMinute } :=
      State.setClock_handles (by simp) fun h => h.nextMinute due.1
    refine counted.trans ?_
    unfold State.evaluateInService
    split
    · exact (State.evaluateWindows_handed _).handles
    · exact .refl _
  · exact .refl s

theorem State.clockSecond_handles (s : State) : s.Handles s.clockSecond := by
  unfold State.clockSecond
  split
  · rename_i set
    split
    · exact s.minuteBoundary_handles
    · rename_i second
      refine State.setClock_handles rfl fun ⟨low, high, minute, most, _⟩ => ⟨low, high, minute, ?_, ?_⟩
      · show s.dck.second + 1 ≤ 59
        omega
      · intro unset
        rw [set] at unset
        cases unset
  · exact .refl s

/-! ## The panel -/

theorem State.setPif_handles {s : State} {x : Pif} (held : x.held = s.pif.held) : s.Handles { s with pif := x } := by
  refine .of_kept (.refl _ _) (sources := fun agree z => ?_)
  obtain ⟨panel, others⟩ := agree z
  exact ⟨by rw [held]; exact panel, others⟩

theorem State.turnPanelKey_handles (s : State) (on : Bool) : s.Handles (s.turnPanelKey on) := by
  unfold State.turnPanelKey
  simp only
  split
  · exact .refl s
  · have turned : s.Handles { s with pif := { s.pif with panelKey := on } } := State.setPif_handles rfl
    refine turned.trans ?_
    split
    · exact State.Handed.handles (.foldl State.placePanel_handed Zone.all _)
    · exact State.Handed.handles (.foldl State.removePanel_handed Zone.all _)

theorem State.takePosition_handles (s : State) (z : Zone) (x : SwitchPosition) : s.Handles (s.takePosition z x) := by
  unfold State.takePosition
  simp only
  have taken : s.Handles { s with pif := { s.pif with
      position := s.pif.position.set z x, switchFault := s.pif.switchFault.set z false } } := State.setPif_handles rfl
  split
  · split
    · exact taken.trans (State.removePanel_handed _ z).handles
    · exact taken.trans (State.placePanel_handed _ z).handles
  · exact taken

theorem State.faultSwitch_handles (s : State) (z : Zone) : s.Handles (s.faultSwitch z) := State.setPif_handles rfl

/-- A change of the session alone; one that is COMMITTING stays. -/
theorem State.setSession_handles {s : State} {x : Session}
    (h : ∀ b, s.sst.session = .committing b true → x = .committing b true) : s.Handles (s.setSession x) := by
  refine .of_kept (.refl _ _) (waiting := fun b e => ?_)
  rw [State.setSession_sst, h b e, ← e]

theorem State.turnCommissioningKey_handles (s : State) (on : Bool) : s.Handles (s.turnCommissioningKey on) := by
  unfold State.turnCommissioningKey
  simp only
  have turned : s.Handles { s with pif := { s.pif with commissioningKey := on } } := State.setPif_handles rfl
  split
  · rename_i opened
    split
    · refine turned.trans (State.setSession_handles fun b e => ?_)
      cases opened.symm.trans e
    · exact turned
  · exact turned

/-! ## The links -/

theorem State.setFif_handles {s : State} {x : Fif} (slot : s.mode ≠ .normal → s.fif.slot = none → x.slot = none) :
    s.Handles { s with fif := x } := by
  refine .of_kept (.refl _ _) (receive := fun ⟨queue, straps, empty⟩ => ⟨queue, straps, fun m => slot m (empty m)⟩)

theorem State.setBli_handles {s : State} {x : Bli} (held : x.held = s.bli.held) (straps : x.straps = s.bli.straps)
    (queue : s.bli.queue.length ≤ Config.receiveQueueLength → x.queue.length ≤ Config.receiveQueueLength) :
    s.Handles { s with bli := x } := by
  refine .of_kept (.refl _ _) (sources := fun agree z => ?_) (receive := fun ⟨short, low, empty⟩ =>
    ⟨queue short, by rw [straps]; exact low, empty⟩)
  obtain ⟨panel, gas, bms, schedule⟩ := agree z
  exact ⟨panel, gas, by rw [held]; exact bms, schedule⟩

theorem State.hearB_handles (s : State) : s.Handles s.hearB := State.setBli_handles rfl rfl id

theorem State.setCap_handles (s : State) (cap : Option Nat) : s.Handles (s.setCap cap) :=
  State.Handles.trans (State.setBli_handles (x := { s.bli with cap := cap }) rfl rfl id)
    (.of_sameClaims (budgetChange_kept _ cap _) (budgetChange_sameClaims _ cap _))

theorem State.abandonOpen_handles (s : State) : s.Handles s.abandonOpen := by
  unfold State.abandonOpen
  split
  · rename_i opened
    exact State.setSession_handles fun b e => by cases opened.symm.trans e
  · exact .refl s

theorem State.loseBLink_handles (s : State) : s.Handles s.loseBLink := by
  unfold State.loseBLink
  simp only
  have lost : s.Handles { s with bli := { s.bli with link := .lost, timer := none } } := State.setBli_handles rfl rfl id
  have released := lost.trans (State.Handed.handles (.foldl State.releaseBms_handed Zone.all _))
  refine State.Handles.trans ?_ ((State.abandonOpen_handles _).trans (State.raise_handles _ _))
  split
  · exact released.trans (State.setCap_handles _ none)
  · exact released

theorem State.loseFLink_handles (s : State) : s.Handles s.loseFLink := by
  unfold State.loseFLink
  simp only
  have lost : s.Handles { s with fif := { s.fif with link := .lost, timer := none } } :=
    State.setFif_handles fun _ h => h
  have raised := lost.trans (State.raise_handles _ .linkTrouble)
  split
  · exact raised.trans (State.placeContact_handed _).handles
  · exact raised

theorem State.changeContact_handles (s : State) (active : Bool) : s.Handles (s.changeContact active) := by
  unfold State.changeContact
  simp only
  split
  · exact .refl s
  · have changed : s.Handles { s with fif := { s.fif with contact := active } } := State.setFif_handles fun _ h => h
    have raised := changed.trans (State.raise_handles _ .fireChange)
    split
    · split
      · exact raised
      · exact raised.trans (State.placeContact_handed _).handles
    · exact raised.trans (State.removeContact_handed _).handles

theorem State.raiseFLink_handles (s : State) : s.Handles s.raiseFLink := by
  unfold State.raiseFLink
  split
  · exact .refl s
  · have up : s.Handles { s with fif := { s.fif with link := .up } } := State.setFif_handles fun _ h => h
    exact up.trans (State.removeContact_handed _).handles

theorem State.sendB_handles (s : State) (f : Frame) : s.Handles (s.sendB f) := .of_kept (.refl _ _)

theorem State.sendF_handles (s : State) (k : Byte) (p : List Byte) : s.Handles (s.sendF k p) := .of_kept (.refl _ _)

theorem State.acceptFrame_handles (s : State) (f : ZoneStateFrame) : s.Handles (s.acceptFrame f) := by
  have recorded : s.Handles { s with fif := { s.fif with
      lastTag := some f.tag, lastMap := f.map, timer := some s.cfg.timers.fLink } } := State.setFif_handles fun _ h => h
  have updated := recorded.trans (.of_plant (fireUpdate_kept _ f.map f.reset _) (fireUpdate_sameRecorded _ _ _ _))
  exact (updated.trans (State.raiseFLink_handles _)).trans (State.sendF_handles _ _ _)

theorem State.takeSlot_handles (s : State) : s.Handles s.takeSlot := by
  unfold State.takeSlot
  split
  · exact .refl s
  · have taken : s.Handles { s with fif := { s.fif with slot := none } } := State.setFif_handles fun _ _ => rfl
    simp only
    split
    · exact taken.trans (State.sendF_handles _ _ _)
    · exact taken.trans (State.acceptFrame_handles _ _)

theorem State.linkError_handles (s : State) : s.Handles s.linkError := by
  unfold State.linkError
  split
  · exact s.raise_handles _
  · exact .refl s

theorem State.setAssembling_handles (s : State) (l : Link) (b : Bool) : s.Handles (s.setAssembling l b) := by
  cases l
  · exact State.setBli_handles rfl rfl id
  · exact State.setFif_handles fun _ h => h

theorem State.breakFrame_handles (s : State) (l : Link) : s.Handles (s.breakFrame l) := by
  unfold State.breakFrame
  split
  · split
    · exact (s.setAssembling_handles .bLink false).trans (State.linkError_handles _)
    · exact s.setAssembling_handles .fLink false
  · exact .refl s

theorem State.startFrame_handles (s : State) (l : Link) : s.Handles (s.startFrame l) := by
  unfold State.startFrame
  split
  · exact .refl s
  · exact s.setAssembling_handles l true

theorem State.enqueueFrame_handles (s : State) (f : Frame) : s.Handles (s.enqueueFrame f) := by
  have joins (room : s.bli.queue.length < Config.receiveQueueLength) : s.Handles (s.setQueue (s.bli.queue ++ [f])) :=
    State.setBli_handles rfl rfl fun _ => by simpa using room
  unfold State.enqueueFrame
  simp only [decide_eq_true_eq]
  split
  · split
    · rename_i room
      exact joins room.2
    · exact .refl s
  · split
    · rename_i room
      exact joins room
    · have latched : s.Handles { s with bli := { s.bli with queue := [], latch := true } } :=
        State.setBli_handles rfl rfl fun _ => by simp
      exact latched.trans (State.linkError_handles _)

theorem State.completeB_handles (s : State) (bs : List Byte) : s.Handles (s.completeB bs) := by
  unfold State.completeB
  simp only
  have ended := s.setAssembling_handles .bLink false
  split
  · exact ended.trans (State.linkError_handles _)
  · split
    · exact ended.trans (State.enqueueFrame_handles _ _)
    · exact ended

theorem State.completeF_handles (s : State) (bs : List Byte) : s.Handles (s.completeF bs) := by
  unfold State.completeF
  simp only
  have ended := s.setAssembling_handles .fLink false
  split
  · rename_i normal
    split
    · exact ended.trans (State.setFif_handles fun m => absurd normal m)
    · exact ended
  · exact ended

end Sys2Proof.Machine

/-! The requests, the events of the field side, the application of a settings block and the end of a handling, each shown
to keep what a step keeps. -/

namespace Sys2Proof.Machine

/-! ## Events of the field side -/

theorem State.Handles.onPlant {s : State} {f : Plant → Plant} (kept : ∀ p : Plant, p.Kept s.cfg (f p))
    (same : ∀ p : Plant, p.SameClaims (f p)) : s.Handles (s.onPlant f) := .of_sameClaims (kept _) (same _)

theorem State.changeEndSwitch_handles (s : State) (z : Zone) (w : EndSwitch) (b : Bool) :
    s.Handles (s.onPlant (changeEndSwitch s.cfg z w b)) := by
  refine .onPlant (fun p => ?_) (fun p => ?_) <;> unfold changeEndSwitch <;> split
  · exact .refl _ p
  · exact damperEvent_kept _ z _ p
  · exact .refl p
  · exact damperEvent_sameClaims _ z _ p

theorem State.expireSpacing_handles (s : State) : s.Handles s.expireSpacing := by
  unfold State.expireSpacing
  split
  · exact .onPlant (testQueue_kept _) fun p => (testQueue_chain _ p).sameClaims
  · exact .refl s

theorem State.expireSettle_handles (s : State) : s.Handles s.expireSettle := by
  unfold State.expireSettle
  split
  · exact .onPlant (endSettle_kept _ _) (endSettle_sameClaims _ _)
  · exact .refl s

theorem State.expireFLink_handles (s : State) : s.Handles s.expireFLink := by
  unfold State.expireFLink
  split
  · exact s.loseFLink_handles
  · exact .refl s

theorem State.expireBLink_handles (s : State) : s.Handles s.expireBLink := by
  unfold State.expireBLink
  split
  · exact s.loseBLink_handles
  · exact .refl s

theorem InhibitsRanked.tick {l : List Inhibit} (h : InhibitsRanked l) :
    InhibitsRanked (l.map fun e => { e with remaining := e.remaining - 1 }) := by
  obtain ⟨short, nodup, sorted⟩ := h
  refine ⟨by simpa using short, by simpa [List.map_map, Function.comp_def] using nodup, ?_⟩
  rw [List.pairwise_map]
  exact sorted.imp fun h => Nat.sub_le_sub_right h 1

theorem ReadingOk.tick {r : ChannelRec} {e : ChannelEval} (h : ReadingOk r e) :
    ReadingOk r { e with delay := tickTimer e.delay } := by
  refine ⟨h.average, fun n => ?_, ?_⟩
  · rw [h.blank n]
    rfl
  · rw [← h.delay]
    cases e.delay <;> simp

theorem State.tick_handles (s : State) : s.Handles s.tick := by
  refine .of_kept (tick_kept _ s.plant) (sources := ?_) (inhibits := fun h => InhibitsRanked.tick h) (readings := ?_)
  · refine Plant.SameRecorded.sources (Plant.SameClaims.sameRecorded (.of_eq rfl rfl)) ?_
    funext src z
    cases src with
    | gas => simp [State.held, State.tick, Fev.tick]
    | panel | bms | schedule | fireLink | fireContact | adjacency => rfl
  · intro ok
    rw [State.readingsOk_iff] at ok ⊢
    intro c
    have eval : s.tick.eval c = { s.eval c with delay := tickTimer (s.eval c).delay } := by
      simp [State.eval, State.tick, Fev.tick]
    rw [eval]
    exact (ok c).tick

theorem State.rampPeriod_handles (s : State) : s.Handles s.rampPeriod := by
  refine s.tick_handles.trans (.onPlant (fun p => ?_) (fun p => ?_))
  · exact (ramp_kept _ p).trans (testQueue_kept _ _)
  · exact FanChain.sameClaims ((ramp_chain s.cfg p).trans (testQueue_chain _ _))

theorem State.completeWrite_handles (s : State) : s.Handles s.completeWrite := by
  unfold State.completeWrite
  split
  · rename_i writing
    exact .of_kept (.refl _ _) (waiting := fun b e => by cases writing.symm.trans e)
  · exact .refl s

/-! ## Requests -/

theorem withZone_handles {s : State} {z : Byte} {h : Zone → Handler} (k : ∀ z, s.Handles (h z s).1) :
    s.Handles (withZone z h s).1 := by
  unfold withZone
  split
  · exact k _
  · exact .refl s

theorem withGroup_handles {s : State} {g : Byte} {h : Group → Handler} (k : ∀ g, s.Handles (h g s).1) :
    s.Handles (withGroup g h s).1 := by
  unfold withGroup
  split
  · exact k _
  · exact .refl s

theorem withFan_handles {s : State} {f : Byte} {h : Fan → Handler} (k : ∀ f, s.Handles (h f s).1) :
    s.Handles (withFan f h s).1 := by
  unfold withFan
  split
  · exact k _
  · exact .refl s

theorem withChannel_handles {s : State} {c : Byte} {h : Channel → Handler} (k : ∀ c, s.Handles (h c s).1) :
    s.Handles (withChannel c h s).1 := by
  unfold withChannel
  split
  · exact k _
  · exact .refl s

theorem askChannel_handles (s : State) (c : Byte) : s.Handles (askChannel c s).1 :=
  withChannel_handles fun _ => State.setChannel_handles fun ok => ⟨ok.average, ok.blank, ok.delay⟩

theorem askExhaust_handles (s : State) (z d : Byte) : s.Handles (askExhaust z d s).1 :=
  withZone_handles fun z => by
    split
    · exact (s.releaseBms_handed z).handles
    · exact (s.claimBms_handed z _).handles

theorem State.putClock_handles {s : State} {day minute second : Nat}
    (range : 1 ≤ day ∧ day ≤ 7 ∧ minute ≤ 1439 ∧ second ≤ 59) : s.Handles (s.putClock day minute second) := by
  obtain ⟨low, high, min, sec⟩ := range
  have put : s.Handles { s with dck := { s.dck with day := day, minute := minute, second := second, isSet := true } } :=
    State.setClock_handles rfl fun _ => ⟨low, high, min, sec, by simp⟩
  exact put.trans (State.evaluateWindows_handed _).handles

theorem askClock_handles (s : State) (day : Byte) (minute : Word) (second : Byte) :
    s.Handles (askClock day minute second s).1 := by
  unfold askClock
  split
  · rename_i range
    exact State.putClock_handles range
  · exact .refl s

theorem askAdjust_handles (s : State) : s.Handles (askAdjust s).1 := by
  unfold askAdjust
  split
  · rename_i set
    refine State.Handles.trans (State.setClock_handles ?_ fun h => ?_) (State.evaluateWindows_handed _).handles
    · split
      · rfl
      · simp
    · split
      · obtain ⟨low, high, minute, -, -⟩ := h
        exact ⟨low, high, minute, Nat.zero_le _, fun unset => absurd set (by simp [show s.dck.isSet = false from unset])⟩
      · exact h.nextMinute set
  · exact .refl s

theorem askInhibit_handles (s : State) (c : Byte) (t : Word) : s.Handles (askInhibit c t s).1 :=
  withChannel_handles fun c => by
    simp only
    split
    · exact .refl s
    · split
      · rename_i listed
        exact s.renewInhibit_handles _ listed
      · split
        · exact .refl s
        · rename_i new room
          exact State.startInhibit_handles _ (by simpa using new) (Nat.lt_of_not_le room)

theorem askRestore_handles (s : State) (c : Byte) : s.Handles (askRestore c s).1 :=
  withChannel_handles fun c => by
    split
    · exact s.leaveInhibits_handles c
    · exact .refl s

theorem askLock_handles (s : State) (f : Byte) : s.Handles (askLock f s).1 :=
  withFan_handles fun f => by
    simp only
    split
    · exact .refl s
    · split
      · exact .refl s
      · exact .onPlant (lockPlantFan_kept _ f) (lockPlantFan_sameClaims _ f)

theorem askUnlock_handles (s : State) (f : Byte) : s.Handles (askUnlock f s).1 :=
  withFan_handles fun f => by
    split
    · exact .onPlant (returnPlantFan_kept _ f) (returnPlantFan_sameClaims _ f)
    · exact .refl s

theorem askReset_handles (s : State) (f : Byte) : s.Handles (askReset f s).1 :=
  withFan_handles fun f => by
    split
    · have cleared := setFan_kept s.cfg s.plant f { s.plant.fan f with attempts := 0 } rfl
      have same : s.plant.SameClaims (s.plant.setFan f { s.plant.fan f with attempts := 0 }) := .of_eq rfl rfl
      exact .of_sameClaims ((cleared id).trans (returnPlantFan_kept _ f _)) (same.trans (returnPlantFan_sameClaims _ f _))
    · exact .refl s

theorem askOpen_handles (s : State) (b : Byte) : s.Handles (askOpen b s).1 := by
  unfold askOpen State.openEdit
  split
  · rename_i none
    split
    · exact .refl s
    · split
      · exact .refl s
      · exact State.setSession_handles fun b e => by cases none.symm.trans e
  · exact .refl s

theorem askWrite_handles (s : State) (i v : Word) : s.Handles (askWrite i v s).1 := by
  unfold askWrite State.writeItem
  split
  · exact .refl s
  · exact .refl s
  · exact .refl s
  · rename_i opened
    split <;> exact State.setSession_handles fun b e => by cases opened.symm.trans e

theorem askCommit_handles (s : State) : s.Handles (askCommit s).1 := by
  unfold askCommit State.commitEdit
  split
  · exact .refl s
  · exact .refl s
  · exact .refl s
  · rename_i opened
    split
    · exact State.setSession_handles fun b e => by cases opened.symm.trans e
    · split
      · exact .refl s
      · exact .of_kept (.refl _ _) (waiting := fun b e => by cases opened.symm.trans e)

theorem askAbandon_handles (s : State) : s.Handles (askAbandon s).1 := by
  unfold askAbandon State.abandonEdit
  split
  · exact .refl s
  · exact .refl s
  · rename_i opened
    exact State.setSession_handles fun b e => by cases opened.symm.trans e

/-- Every request but FETCH-EVENTS, which empties the event set, and a RESTART, which may end normal operation. -/
theorem requestHandler_handles (r : Request) (events : r ≠ .fetchEvents) (restart : r ≠ .restart) (s : State) :
    s.Handles (requestHandler r s).1 := by
  cases r with
  | readSummary => exact .refl s
  | readZone z => exact withZone_handles fun _ => .refl s
  | readGroup g => exact withGroup_handles fun _ => .refl s
  | readFan f => exact withFan_handles fun _ => .refl s
  | readChannel c => exact askChannel_handles s c
  | fetchEvents => exact absurd rfl events
  | claimExhaust z d => exact askExhaust_handles s z d
  | claimShut z => exact withZone_handles fun z => (s.claimBms_handed z _).handles
  | release z => exact withZone_handles fun z => (s.releaseBms_handed z).handles
  | setBudget cap => exact s.setCap_handles _
  | clearBudget => exact s.setCap_handles none
  | setClock day minute second => exact askClock_handles s day minute second
  | adjustClock => exact askAdjust_handles s
  | inhibit c t => exact askInhibit_handles s c t
  | restore c => exact askRestore_handles s c
  | lockFan f => exact askLock_handles s f
  | unlockFan f => exact askUnlock_handles s f
  | resetFan f => exact askReset_handles s f
  | openEdit b => exact askOpen_handles s b
  | writeItem i v => exact askWrite_handles s i v
  | commitEdit => exact askCommit_handles s
  | abandonEdit => exact askAbandon_handles s
  | readSetting b i => exact .refl s
  | restart => exact absurd rfl restart
  | clearLink => exact State.setBli_handles rfl rfl id

end Sys2Proof.Machine

/-! The application of a settings block and the end of a handling, shown to keep what a step keeps. -/

namespace Sys2Proof.Machine

/-! ## A CHANNELS block -/

/-- The evaluation record that FEV gives a channel under a CHANNELS block (R67). -/
def State.fevEval (old : ChannelsBlock) (s : State) (c : Channel) : ChannelEval :=
  let was := old.channel.get c
  let now := s.cfg.channels.channel.get c
  if channelMoved was now then .blank
  else if thresholdsChanged was now && s.countedChannel c then
    ((s.eval c).evaluate now (s.channelVStart c) (s.channel c).average).redelay was.alarmDelay now.alarmDelay (s.eval c)
  else s.eval c

theorem State.fevEval_congr {old : ChannelsBlock} {s t : State} {c : Channel} (sst : t.sst = s.sst) (scn : t.scn = s.scn)
    (eval : t.eval c = s.eval c) : t.fevEval old c = s.fevEval old c := by
  simp only [State.fevEval, eval, State.cfg, sst, State.countedChannel, State.channel, State.channelVStart, scn]
  rfl

/-- FEV takes one channel of a CHANNELS block: its evaluation record, with GAS-ALARM where it enters an alarm. -/
theorem State.fevChannel_eq (old : ChannelsBlock) (s : State) (c : Channel) : ∃ b : Bool,
    State.fevChannel old s c = (s.setEval c (s.fevEval old c)).onPlant fun p => p.raiseIf b .gasAlarm := by
  unfold State.fevChannel State.fevEval
  simp only
  split
  · exact ⟨false, rfl⟩
  · split
    · exact ⟨_, rfl⟩
    · exact ⟨false, by rw [State.setEval_eval]; rfl⟩

/-- What FEV's taking of some channels of a CHANNELS block touches, and the records it leaves. -/
structure State.Reevaluated (old : ChannelsBlock) (l : List Channel) (s t : State) : Prop where
  only : t = { s with plant := t.plant, fev := { s.fev with channels := t.fev.channels } }
  kept : s.plant.Kept s.cfg t.plant
  same : s.plant.SameFireSide t.plant
  eval : ∀ c, t.eval c = if c ∈ l then s.fevEval old c else s.eval c

theorem State.fevChannels_reevaluated (old : ChannelsBlock) (l : List Channel) (nodup : l.Nodup) (s : State) :
    s.Reevaluated old l (l.foldl (State.fevChannel old) s) := by
  induction l generalizing s with
  | nil => exact ⟨rfl, .refl _ _, .refl _, fun c => by simp⟩
  | cons a l ih =>
    obtain ⟨new, nodup⟩ := List.nodup_cons.mp nodup
    obtain ⟨b, first⟩ := State.fevChannel_eq old s a
    obtain ⟨only, kept, same, eval⟩ := ih nodup (State.fevChannel old s a)
    simp only [List.foldl_cons]
    rw [first] at only kept same eval ⊢
    refine ⟨by rw [only]; rfl, (raiseIf_kept _ _ b .gasAlarm).trans kept, ?_, fun c => ?_⟩
    · exact (FanChain.same (cfg := s.cfg) (by cases b; exacts [.refl, raise_chain _ _ _])).trans same
    · rw [eval]
      by_cases e : c = a
      · subst e
        simp only [new, if_false, List.mem_cons, true_or, if_true]
        exact State.setEval_self s c _
      · have left : ((s.setEval a (s.fevEval old a)).onPlant fun p => p.raiseIf b .gasAlarm).eval c = s.eval c :=
          State.setEval_other s e _
        have same : ((s.setEval a (s.fevEval old a)).onPlant fun p => p.raiseIf b .gasAlarm).fevEval old c =
            s.fevEval old c := State.fevEval_congr rfl rfl left
        simp only [List.mem_cons, e, false_or, left, same]

theorem ChannelEval.redelay_delay {e before : ChannelEval} (old new : Nat)
    (h : e.delay.isSome = true ↔ e.alarm = .a1Pending) :
    (e.redelay old new before).delay.isSome = true ↔ (e.redelay old new before).alarm = .a1Pending := by
  unfold ChannelEval.redelay
  split
  · rename_i pending _
    split
    · simp [pending]
    · simp
  · exact h

theorem ChannelRec.resettle_same {old new : ChannelSetting} {listed : Bool} {r : ChannelRec}
    (h : channelMoved old new = false) : r.resettle old new listed = r := by
  simp [ChannelRec.resettle, h]

theorem ChannelRec.resettle_average {old new : ChannelSetting} {listed : Bool} {r : ChannelRec}
    (h : r.average = (r.ring.map Ring.mean).getD 0) :
    (r.resettle old new listed).average = ((r.resettle old new listed).ring.map Ring.mean).getD 0 := by
  unfold ChannelRec.resettle
  split
  · exact h
  · split
    · exact h
    · rfl
    · rfl
    · rfl

/-- The channel records and evaluations under a CHANNELS block go together as before. -/
theorem State.resettle_readings {s : State} {old : ChannelsBlock} {c : Channel}
    (h : ReadingOk (s.channel c) (s.eval c)) :
    ReadingOk ((s.scnChannels old).channel c) ((s.scnChannels old).fevEval old c) := by
  have record : (s.scnChannels old).channel c = (s.channel c).resettle (old.channel.get c)
      (s.cfg.channels.channel.get c) (s.listed c) := PerChannel.get_build _ _
  unfold State.fevEval
  simp only
  split
  · rw [record]
    exact .of_blank (ChannelRec.resettle_average h.average)
  · rename_i unmoved
    have kept : (s.scnChannels old).channel c = s.channel c :=
      record.trans (ChannelRec.resettle_same (Bool.eq_false_of_not_eq_true unmoved))
    split
    · rename_i evaluated
      have counted : (s.scnChannels old).countedChannel c = true := (Bool.and_eq_true_iff.mp evaluated).2
      rw [kept]
      have counted' : ((s.channel c).condition == .active && (s.channel c).ring.isSome) = true := by
        simpa only [State.countedChannel, kept] using counted
      have evaluated := h.evaluate counted' (s.cfg.channels.channel.get c) ((s.scnChannels old).channelVStart c)
        (s.channel c).average
      exact ⟨h.average, fun n => absurd counted' (by simp [n]), ChannelEval.redelay_delay _ _ evaluated.delay⟩
    · rw [kept]
      exact h

theorem State.applyChannels_handles (s : State) (old : ChannelsBlock) : s.Handles (s.applyChannels old) := by
  refine State.Handles.trans ?_ (State.Handed.handles (.foldl (State.fevZone_handed old) Zone.all _))
  obtain ⟨only, kept, same, eval⟩ := State.fevChannels_reevaluated old Channel.all Channel.all_nodup (s.scnChannels old)
  have held : (Channel.all.foldl (State.fevChannel old) (s.scnChannels old)).held = s.held := by
    rw [only]
    funext src z
    cases src <;> rfl
  refine .of_kept kept ?_ ?_ ?_ (same.sameClaims.sameRecorded.sources held) (fun h => ?_) (fun ok => ?_) ?_ ?_ ?_ ?_
  all_goals rw [only]
  case refine_1 | refine_2 | refine_3 | refine_9 => rfl
  case refine_4 => exact InhibitsRanked.filter h _
  case refine_6 | refine_7 => exact id
  case refine_8 => exact fun _ _ => rfl
  case refine_5 =>
    rw [State.readingsOk_iff] at ok ⊢
    intro c
    rw [← only, eval, if_pos (Channel.mem_all c)]
    have record : (Channel.all.foldl (State.fevChannel old) (s.scnChannels old)).channel c =
        (s.scnChannels old).channel c := by rw [only]; rfl
    rw [record]
    exact State.resettle_readings (ok c)

/-! ## A TIMERS block -/

theorem State.retimeFLink_handles (s : State) (old new : Nat) : s.Handles (s.retimeFLink old new) := by
  unfold State.retimeFLink
  split
  · exact .refl s
  · split
    · exact State.setFif_handles fun _ h => h
    · exact s.loseFLink_handles

theorem State.retimeBLink_handles (s : State) (old new : Nat) : s.Handles (s.retimeBLink old new) := by
  unfold State.retimeBLink
  split
  · exact .refl s
  · split
    · exact State.setBli_handles rfl rfl id
    · exact s.loseBLink_handles

theorem State.applyTimers_handles (s : State) (old : TimersBlock) : s.Handles (s.applyTimers old) := by
  unfold State.applyTimers
  simp only
  refine State.Handles.trans (State.Handles.trans (.onPlant (fun p => ?_) (fun p => ?_))
    (State.retimeFLink_handles _ _ _)) (State.retimeBLink_handles _ _ _)
  · exact ((retimeDampers_kept _ _ _ p).trans (retimeFans_kept _ _ _ _)).trans (retimeSettle_kept _ _ _ _ _)
  · exact ((retimeDampers_sameClaims _ _ _ p).trans (retimeFans_chain _ _ _ _).same.sameClaims).trans
      (retimeSettle_sameClaims _ _ _ _ _)

/-! ## Any block -/

theorem StatusSays.congr_cfg {cfg cfg' : Settings} {p : Plant} {z : Zone} {x : SmokeStatus} (zones : cfg'.zones = cfg.zones)
    (fans : cfg'.fans = cfg.fans) : StatusSays cfg p z x → StatusSays cfg' p z x := by
  intro h
  simpa only [StatusSays, zones, fans] using h

/-- A block that is neither ZONES nor FANS in force: no rule that a step keeps speaks of its values. -/
theorem State.putInForce_keeps {s : State} {v : BlockValue} (zones : (s.sst.inForce.put v).zones = s.sst.inForce.zones)
    (fans : (s.sst.inForce.put v).fans = s.sst.inForce.fans) : s.Keeps (s.putInForce v) where
  mode := rfl
  pending := rfl
  noted := .of_zones rfl fun h => h
  override := id
  statuses h z := (h z).congr_cfg zones fans
  duty h m g := by
    have kept := h m g
    simp only [State.cfg] at kept
    rw [← fans] at kept
    exact kept
  sources := id
  inhibits := id
  readings := id
  receive := id
  clock := id

/-- A ZONES block in force with the statuses under the new groups (R27). -/
theorem State.regroup_keeps (s : State) (v : ZonesBlock) :
    s.Keeps ((s.putInForce (.zones v)).onPlant (refreshStatus (s.putInForce (.zones v)).cfg)) where
  mode := rfl
  pending := rfl
  noted := refreshStatus_noted _ _
  override h f := by simpa [Plant.fan] using h f
  statuses _ := refreshStatus_says _ _
  duty h m g := by
    rw [State.onPlant_plant, refreshStatus_gal]
    exact h m g
  sources := (refreshStatus_chain _ s.plant).same.sameClaims.sameRecorded.sources rfl
  inhibits := id
  readings := id
  receive := id
  clock := id

/-- The plant with every duty order rebuilt under a FANS block (R117). -/
def rebuilt (cfg : Settings) (p : Plant) : Plant :=
  { p with gal := { p.gal with groups := .build fun g =>
      { p.gal.groups.get g with duty := rebuildDuty cfg g (p.gal.groups.get g).duty } } }

theorem foldl_rebuildDuty (cfg : Settings) (p : Plant) :
    Group.all.foldl (fun q g => q.setDuty g (rebuildDuty cfg g (q.gal.groups.get g).duty)) p = rebuilt cfg p := rfl

theorem mem_groupFans {cfg : Settings} {g : Group} {f : Fan} : f ∈ cfg.groupFans g ↔ cfg.fans.group.get f = some g := by
  simp [Settings.groupFans]

theorem rebuildDuty_nodup (cfg : Settings) (g : Group) {l : List Fan} (h : l.Nodup) : (rebuildDuty cfg g l).Nodup := by
  refine List.nodup_append.mpr ⟨h.filter _, (Fan.all_nodup.filter _).filter _, ?_⟩
  simp only [List.mem_filter, Bool.not_eq_true']
  rintro a ha b ⟨-, hb⟩ rfl
  simp_all

theorem mem_rebuildDuty {cfg : Settings} {g : Group} {l : List Fan} {f : Fan} :
    f ∈ rebuildDuty cfg g l ↔ cfg.fans.group.get f = some g := by
  by_cases h : f ∈ l <;> simp [rebuildDuty, mem_groupFans, h]

theorem State.applyFans_eq (s : State) :
    s.applyFans = { s with plant := refreshStatus s.cfg (runPass s.cfg (rebuilt s.cfg s.plant)) } := by
  simp only [State.applyFans, State.onPlant, foldl_rebuildDuty]

/-- A FANS block in force, handed to its owners (R117, R131, R159, R27). -/
theorem State.refan_keeps (s : State) (v : FansBlock) : s.Keeps (s.putInForce (.fans v)).applyFans := by
  rw [State.applyFans_eq, State.putInForce_plant]
  generalize e : (s.putInForce (.fans v)).cfg = cfg
  have refreshed := (runPass_kept cfg (rebuilt cfg s.plant)).trans (refreshStatus_kept cfg _)
  have chain := (runPass_chain cfg (rebuilt cfg s.plant)).trans (refreshStatus_chain cfg _)
  have same := FanChain.sameClaims_of s.plant chain rfl rfl
  have start : s.plant.Noted (rebuilt cfg s.plant) := .of_zones rfl fun h => h
  have fresh := refreshStatus_says cfg (runPass cfg (rebuilt cfg s.plant))
  generalize refreshStatus cfg (runPass cfg (rebuilt cfg s.plant)) = q at refreshed chain same fresh ⊢
  exact {
    mode := rfl
    pending := rfl
    noted := start.trans refreshed.noted
    override := refreshed.override
    statuses := fun _ => by subst e; exact fresh
    duty := fun h m g => by
      obtain ⟨nodup, -⟩ := h m g
      have orders : ((rebuilt cfg s.plant).gal.groups.get g).duty =
          rebuildDuty cfg g (s.plant.gal.groups.get g).duty := by simp [rebuilt]
      have perm := refreshed.duty g (by rw [orders]; exact rebuildDuty_nodup _ g nodup)
      rw [orders] at perm
      exact ⟨perm.nodup_iff.mpr (rebuildDuty_nodup _ g nodup), fun f => by
        rw [perm.mem_iff, mem_rebuildDuty, ← e]⟩
    sources := same.sameRecorded.sources rfl
    inhibits := id
    readings := id
    receive := id
    clock := id }

/-- A ZONES block in force, handed to its owners (R24, R82, R131). -/
theorem State.applyZones_keeps (s : State) (v : ZonesBlock) : s.Keeps (s.putInForce (.zones v)).applyZones := by
  refine (s.regroup_keeps v).trans ?_
  unfold State.applyZones
  simp only
  generalize e : (s.putInForce (.zones v)).onPlant (refreshStatus (s.putInForce (.zones v)).cfg) = t
  have pass {u : State} (h : t.Handed .fireContact u) : t.Keeps (u.onPlant (runPass (s.putInForce (.zones v)).cfg)) := by
    have cfg : (s.putInForce (.zones v)).cfg = u.cfg := by rw [State.cfg, State.cfg, h.sst, ← e]; rfl
    rw [cfg]
    exact h.handles.toKeeps.trans (State.Handles.onPlant (runPass_kept _) fun p => (runPass_chain _ p).sameClaims).toKeeps
  split
  · exact pass t.placeContact_handed
  · exact pass (.refl _ t)

theorem State.applyToOwners_keeps (s : State) (v : BlockValue) :
    s.Keeps ((s.putInForce v).applyToOwners s.sst.inForce v.block) := by
  cases v with
  | zones v => exact s.applyZones_keeps v
  | fans v => exact s.refan_keeps v
  | channels v => exact (State.putInForce_keeps rfl rfl).trans (State.applyChannels_handles _ _).toKeeps
  | timers v => exact (State.putInForce_keeps rfl rfl).trans (State.applyTimers_handles _ _).toKeeps
  | budget v =>
    exact (State.putInForce_keeps rfl rfl).trans
      (State.Handles.onPlant (budgetChange_kept _ _) (budgetChange_sameClaims _ _)).toKeeps
  | windows v => exact (State.putInForce_keeps rfl rfl).trans (State.evaluateWindows_handed _).handles.toKeeps

theorem State.applyBlock_keeps (s : State) (v : BlockValue) : s.Keeps (s.applyBlock v) := by
  refine (s.applyToOwners_keeps v).trans (State.Keeps.trans ?_ (State.raise_handles _ .settingsDone).toKeeps)
  exact { State.Keeps.refl _ with }

theorem State.applyIfReady_keeps (s : State) : s.Keeps s.applyIfReady := by
  unfold State.applyIfReady
  split
  · split
    · exact s.applyBlock_keeps _
    · exact .refl s
  · exact .refl s

theorem State.refreshPins_keeps (s : State) : s.Keeps s.refreshPins := { State.Keeps.refl s with }

theorem State.settle_keeps (s : State) : s.Keeps s.settle := by
  unfold State.settle
  split
  · exact s.applyIfReady_keeps.trans (State.refreshPins_keeps _)
  · exact .refl s

/-! ## Blocks that wait -/

theorem Plant.fireSide_iff (p : Plant) : p.fireSide = true ↔ ∃ z, ∃ c ∈ (p.zones.get z).claims, 5 ≤ c.level := by
  simp [Plant.fireSide, hasFireSide]

theorem State.commitCondition_iff (s : State) : s.commitCondition = true ↔
    (∀ z, ∀ c ∈ (s.plant.zones.get z).claims, c.level < 5) ∧
      ∀ f, (s.plant.fan f).state ∈ [FanState.off, .tripped, .locked] := by
  simp only [State.commitCondition, Bool.and_eq_true, Bool.not_eq_true', ← Bool.not_eq_true, Plant.fireSide_iff,
    List.all_eq_true, Fan.mem_all, true_imp_iff, FanState.atRest_iff]
  push Not
  rfl

theorem BlockValue.protected_iff (v : BlockValue) :
    v.block.protected? = true ↔ v.block = .zones ∨ v.block = .fans := by
  cases v <;> simp [BlockValue.block, Block.protected?]

theorem State.applyBlock_session (s : State) (v : BlockValue) : (s.applyBlock v).sst.session = .none := rfl

/-- After the end of a handling a written block waits only while its condition fails (R190). -/
theorem State.applyIfReady_waitingOk (s : State) : s.applyIfReady.WaitingOk := by
  intro _ v waits
  unfold State.applyIfReady at waits ⊢
  split at waits
  · rename_i w written
    split at waits
    · cases (State.applyBlock_session s w).symm.trans waits
    · rename_i held
      cases written.symm.trans waits
      have held : v.block.protected? = true ∧ ¬s.commitCondition = true := by simpa using held
      simp only [held.1, held.2, Bool.not_true, Bool.false_or, if_false, Bool.false_eq_true]
      refine ⟨v.protected_iff.mp held.1, ?_⟩
      have unmet := held.2
      rw [State.commitCondition_iff, not_and_or] at unmet
      push Not at unmet
      exact unmet
  · rename_i unwritten
    exact absurd waits (unwritten v)

theorem State.settle_waitingOk {s : State} (normal : s.mode = .normal) : s.settle.WaitingOk := by
  rw [State.settle, if_pos normal]
  exact s.applyIfReady_waitingOk

end Sys2Proof.Machine

/-! What a step does to the state, case by case, and the invariants that follow for every step. -/

namespace Sys2Proof.Machine

/-! ## The cases of a step -/

/-- The part in LOADING as a power-on reset or a restart leaves it (R187): every record blank but for what the two
keep. -/
structure State.Loaded (s t : State) : Prop where
  mode : t.mode = .loading
  pending : t.pending = s.pending
  plant : ∃ raised, t.plant = Plant.blank.raiseIf raised .fireChange
  scn : t.scn = .blank
  fev : t.fev = .blank
  slot : t.fif.slot = none
  pif : t.pif = .blank
  clock : s.ClockOk → t.ClockOk
  schedule : t.dck.held = .build fun _ => none
  bli : ∃ (straps : BitVec 5) (b : Bool), t.bli = { Bli.blank straps.toNat with assembling := b }
  pins : t.pins = .loading .fLinkOnly

/-- The state with an emptied event set, as FETCH-EVENTS leaves it before the end of its handling (R183). -/
def State.emptied (s : State) : State := { s with plant := { s.plant with events := .empty } }

/-- What a command does. -/
inductive State.Ended (s t : State) : Prop
  /-- Nothing, but that a frame may leave the receive queue unanswered. -/
  | idle (q : List Frame) (shorter : q.length ≤ s.bli.queue.length) (h : t = s.setQueue q)
  /-- A handling of normal operation, with its end. -/
  | settled (v u : State) (start : v = s ∨ v = s.emptied) (normal : s.mode = .normal) (handled : v.Handles u)
      (h : t = u.settle)
  /-- A receiver or the clock outside normal operation, or the answer BUSY. -/
  | quiet (mode : s.mode ≠ .normal) (handled : s.Handles t)
  /-- Into LOADING. -/
  | loaded (h : s.Loaded t)
  /-- LOADING ends. -/
  | began (x : Lines) (mode : s.mode = .loading) (h : t = (s.beginOperation x).settle)
  /-- Power is lost. -/
  | stopped (h : t = s.unpower)

theorem State.inService_ended {s : State} {f : State → State} (h : s.Handles (f s)) : s.Ended (s.inService f) := by
  unfold State.inService
  split
  · rename_i normal
    exact .settled s _ (.inl rfl) normal h rfl
  · exact .idle _ le_rfl rfl

/-- An operation that a part with power takes in LOADING too, without its end there. -/
theorem State.powered_ended {s u : State} (h : s.Handles u) : s.Ended u.settle := by
  by_cases normal : s.mode = .normal
  · exact .settled s u (.inl rfl) normal h rfl
  · rw [State.settle_other (by rw [h.mode]; exact normal)]
    exact .quiet normal h

theorem State.setQueue_handles {s : State} {q : List Frame} (shorter : q.length ≤ s.bli.queue.length) :
    s.Handles (s.setQueue q) := State.setBli_handles rfl rfl shorter.trans

/-- A taken frame (R177), once it has left the receive queue; its request leaves normal operation only for LOADING. -/
theorem State.answer_ended {s : State} {q : List Frame} (shorter : q.length ≤ s.bli.queue.length) (k : Byte) {h : Handler}
    (handled : s.mode = .normal → (s.setQueue q).hearB.Handles (h (s.setQueue q).hearB).1 ∨
      (s.emptied.setQueue q).hearB.Handles (h (s.setQueue q).hearB).1 ∨ s.Loaded (h (s.setQueue q).hearB).1) :
    s.Ended ((s.setQueue q).answer k h) := by
  unfold State.answer
  split
  · exact .idle q shorter rfl
  · split
    · exact .idle q shorter rfl
    · rename_i loading
      have loading : s.mode = .loading := loading
      exact .quiet (by simp [loading]) ((State.setQueue_handles shorter).trans (State.sendB_handles _ _))
    · rename_i normal
      simp only
      rcases handled normal with done | done | loaded
      · exact .settled s _ (.inl rfl) normal ((((State.setQueue_handles shorter).trans
          (State.hearB_handles _)).trans done).trans (State.sendB_handles _ _)) rfl
      · exact .settled s.emptied _ (.inr rfl) normal ((((State.setQueue_handles (s := s.emptied) shorter).trans
          (State.hearB_handles _)).trans done).trans (State.sendB_handles _ _)) rfl
      · rw [State.settle_other (by rw [State.sendB_mode, loaded.mode]; decide)]
        exact .loaded { loaded with }

theorem State.restart_loaded {s u : State} (straps : BitVec 5) (pending : u.pending = s.pending) (dck : u.dck = s.dck) :
    s.Loaded (u.restart straps.toNat) where
  mode := rfl
  pending := pending
  plant := ⟨false, rfl⟩
  scn := rfl
  fev := rfl
  slot := rfl
  pif := rfl
  clock h := by
    simpa only [State.ClockOk, State.restart, State.load, dck] using h
  schedule := rfl
  bli := ⟨straps, u.bli.assembling, rfl⟩
  pins := rfl

theorem State.powerOn_loaded (s : State) (straps : BitVec 5) : s.Loaded (s.powerOn straps.toNat) where
  mode := rfl
  pending := rfl
  plant := ⟨!s.plant.fireOrder.isEmpty, rfl⟩
  scn := rfl
  fev := rfl
  slot := rfl
  pif := rfl
  clock _ := by simp [State.ClockOk, State.powerOn, State.load, Dck.blank]
  schedule := rfl
  bli := ⟨straps, false, rfl⟩
  pins := rfl

/-- A RESTART, refused or taken, on a state that differs from `s` in nothing that LOADING keeps. -/
theorem askRestart_ended {s t u : State} (straps : BitVec 5) (h : t.Handles u) (pending : u.pending = s.pending)
    (dck : u.dck = s.dck) : t.Handles (askRestart straps.toNat u).1 ∨ s.Loaded (askRestart straps.toNat u).1 := by
  unfold askRestart
  split
  · exact .inl h
  · split
    · exact .inl h
    · exact .inr (State.restart_loaded straps pending dck)

section
variable {s : State} {q : List Frame}

theorem State.answer_restart_ended (shorter : q.length ≤ s.bli.queue.length) (k : Byte) (straps : BitVec 5) :
    s.Ended ((s.setQueue q).answer k (askRestart straps.toNat)) :=
  State.answer_ended shorter k fun _ => (askRestart_ended (s := s) (u := (s.setQueue q).hearB) straps (.refl _) rfl rfl).imp_right .inr

theorem State.answer_request_ended (shorter : q.length ≤ s.bli.queue.length) (k : Byte) (r : Request) :
    s.Ended ((s.setQueue q).answer k (requestHandler r)) := by
  refine State.answer_ended shorter k fun _ => ?_
  by_cases events : r = .fetchEvents
  · subst events
    exact .inr (.inl (.refl _))
  by_cases restart : r = .restart
  · subst restart
    have counted : (s.setQueue q).hearB.Handles (s.setQueue q).hearB.countRestart := .of_kept (.refl _ _)
    exact (askRestart_ended (s := s) (Config.strapLines s.wire.restarts) counted rfl rfl).imp_right .inr
  · exact .inl (requestHandler_handles r events restart _)

theorem State.take_ended (shorter : q.length ≤ s.bli.queue.length) (k : Byte) (p : List Byte) :
    s.Ended ((s.setQueue q).take k p) := by
  unfold State.take
  split
  · exact State.answer_request_ended shorter k _
  · exact State.answer_ended shorter k fun _ => .inl (.refl _)

end

theorem State.takeHead_ended (s : State) : s.Ended s.takeHead := by
  unfold State.takeHead
  split
  · exact .idle _ le_rfl rfl
  · rename_i f fs queue
    exact State.take_ended (by simp [queue]) _ _

/-- What each command does, as one of the cases above. -/
theorem exec_ended (c : Instr) (s t : State) (h : exec c s = .next t) : s.Ended t := by
  have request (k : Byte) (r : Request) (e : t = s.answer k (requestHandler r)) : s.Ended t := by
    rw [e]
    exact State.answer_request_ended (q := s.bli.queue) le_rfl k r
  have powered {u : State} (k : s.Handles u) (e : t = if s.mode = .unpowered then s else u.settle) : s.Ended t := by
    rw [e]
    split
    · exact .idle _ le_rfl rfl
    · exact State.powered_ended k
  have inService {f : State → State} (k : s.Handles (f s)) (e : t = s.inService f) : s.Ended t := by
    rw [e]
    exact State.inService_ended k
  cases c <;> injection h with h <;> replace h := h.symm
  case powerOnReset straps => exact .loaded (h ▸ s.powerOn_loaded straps)
  case loadingComplete x =>
    by_cases loading : s.mode = .loading
    · exact .began x loading (by rw [h, if_pos loading])
    · exact .idle _ le_rfl (by rw [h, if_neg loading]; rfl)
  case bFrameComplete bytes =>
    split at h
    · exact .idle _ le_rfl h
    · split at h
      · rw [h]
        exact State.powered_ended (s.completeB_handles _)
      · exact .idle _ le_rfl h
  case fFrameReceived bytes =>
    split at h
    · exact .idle _ le_rfl h
    · split at h
      · rw [h]
        exact State.powered_ended (s.completeF_handles _)
      · exact .idle _ le_rfl h
  case interbyteGapTimeout l => exact powered (s.breakFrame_handles l) h
  case characterFramingError l => exact powered (s.breakFrame_handles l) h
  case leadByte l => exact powered (s.startFrame_handles l) h
  case minuteBoundary => exact powered s.minuteBoundary_handles h
  case clockSecond => exact powered s.clockSecond_handles h
  case bFrameTaken =>
    split at h
    · exact .idle _ le_rfl h
    · rw [h]
      exact s.takeHead_ended
  case unknownRequest k p =>
    rw [h]
    exact State.take_ended (q := s.bli.queue) le_rfl k p
  case readSummary => exact request _ .readSummary h
  case readZone z => exact request _ (.readZone z) h
  case readGroup g => exact request _ (.readGroup g) h
  case readFan f => exact request _ (.readFan f) h
  case readChannel c => exact request _ (.readChannel c) h
  case fetchEvents => exact request _ .fetchEvents h
  case claimExhaust z d => exact request _ (.claimExhaust z d) h
  case claimShut z => exact request _ (.claimShut z) h
  case release z => exact request _ (.release z) h
  case setBudget cap => exact request _ (.setBudget cap) h
  case clearBudget => exact request _ .clearBudget h
  case setClock d m x => exact request _ (.setClock d m x) h
  case adjustClock => exact request _ .adjustClock h
  case inhibit c x => exact request _ (.inhibit c x) h
  case restore c => exact request _ (.restore c) h
  case lockFan f => exact request _ (.lockFan f) h
  case unlockFan f => exact request _ (.unlockFan f) h
  case resetFan f => exact request _ (.resetFan f) h
  case openEdit b => exact request _ (.openEdit b) h
  case writeItem i v => exact request _ (.writeItem i v) h
  case commitEdit => exact request _ .commitEdit h
  case abandonEdit => exact request _ .abandonEdit h
  case readSetting b i => exact request _ (.readSetting b i) h
  case clearLink => exact request _ .clearLink h
  case restart straps =>
    rw [h]
    exact State.answer_restart_ended (q := s.bli.queue) le_rfl _ straps
  case bLinkSupervisionExpiry => exact inService s.expireBLink_handles h
  case zoneStateFrame => exact inService s.takeSlot_handles h
  case fLinkSupervisionExpiry => exact inService s.expireFLink_handles h
  case generalFireContactChange b => exact inService (s.changeContact_handles b) h
  case zoneSwitchChange z x => exact inService (s.takePosition_handles z x) h
  case switchFault z => exact inService (s.faultSwitch_handles z) h
  case panelInControlKeyChange b => exact inService (s.turnPanelKey_handles b) h
  case commissioningKeyChange b => exact inService (s.turnCommissioningKey_handles b) h
  case lampTestChange b => exact inService (State.setPif_handles (x := { s.pif with lampTest := b }) rfl) h
  case channelSample c q => exact inService (s.convert_handles c _) h
  case inhibitExpiry c => exact inService (s.expireInhibit_handles c) h
  case alarmDelayExpiry c => exact inService (s.expireDelay_handles c) h
  case runOnExpiry z => exact inService (s.expireRunOn_handles z) h
  case endSwitchChange z w b => exact inService (s.changeEndSwitch_handles z w b) h
  case travelExpiry z =>
    exact inService (.onPlant (damperEvent_kept _ z _) (damperEvent_sameClaims _ z _)) h
  case startSpacingExpiry => exact inService s.expireSpacing_handles h
  case runningFeedback f =>
    exact inService (.onPlant (changeDriveInput_kept _ f _ _) (changeDriveInput_sameClaims _ f _ _)) h
  case airflowProven f =>
    exact inService (.onPlant (changeDriveInput_kept _ f _ _) (changeDriveInput_sameClaims _ f _ _)) h
  case driveFault f =>
    exact inService (.onPlant (changeDriveInput_kept _ f _ _) (changeDriveInput_sameClaims _ f _ _)) h
  case driveInputChange f i b =>
    exact inService (.onPlant (changeDriveInput_kept _ f _ _) (changeDriveInput_sameClaims _ f _ _)) h
  case runTimeout f =>
    exact inService (.onPlant (expireIn_kept _ _ f) fun p => (expireIn_chain _ _ f p).sameClaims) h
  case airflowTimeout f =>
    exact inService (.onPlant (expireIn_kept _ _ f) fun p => (expireIn_chain _ _ f p).sameClaims) h
  case coastExpiry f =>
    exact inService (.onPlant (expireIn_kept _ _ f) fun p => (expireIn_chain _ _ f p).sameClaims) h
  case airflowLoss f => exact inService (.onPlant (airflowLost_kept _ f) (airflowLost_sameClaims _ f)) h
  case rampPeriodEnd => exact inService s.rampPeriod_handles h
  case supplyInputChange i b =>
    exact inService (.onPlant (changeSupplyInput_kept _ _ i b) (changeSupplyInput_sameClaims _ _ i b)) h
  case settleExpiry => exact inService s.expireSettle_handles h
  case settingsWriteComplete => exact inService s.completeWrite_handles h
  case powerLoss => exact .stopped h

end Sys2Proof.Machine

/-! The invariants that every step keeps: outputs, statuses, lists, clock, readings and sources. -/

namespace Sys2Proof.Machine

/-! ## States that begin anew -/

/-- What every step keeps, of one state. -/
structure State.Sound (s : State) : Prop where
  override : s.plant.OverrideOk
  statuses : s.StatusesOk
  duty : s.DutyOk
  sources : s.SourcesAgree
  inhibits : s.InhibitsOk
  readings : s.ReadingsOk

theorem StatusSays.of_blank {cfg : Settings} {p : Plant} {z : Zone} (h : p.zones.get z = .blank) :
    StatusSays cfg p z (p.zones.get z).status := by
  simp [StatusSays, h, ZoneRec.blank]

theorem SourcesAgree_of_none {s : State} (zones : ∀ z, s.plant.zones.get z = .blank) (held : ∀ src z, s.held src z = none) :
    s.SourcesAgree := by
  rw [State.sourcesAgree_iff]
  intro src _ z
  rw [zones, held]
  rfl

theorem InhibitsOk_of_nil {s : State} (h : s.scn.inhibits = []) : s.InhibitsOk := by
  simp [State.InhibitsOk, h]

@[simp] theorem Scn.blank_get (c : Channel) : Scn.blank.channels.get c = .blank := by simp [Scn.blank]

@[simp] theorem Fev.blank_channel (c : Channel) : Fev.blank.channels.get c = .blank := by simp [Fev.blank]

@[simp] theorem Fev.blank_zone (z : Zone) : Fev.blank.zones.get z = .blank := by simp [Fev.blank]

theorem ReadingsOk_of_blank {s : State} (scn : s.scn = .blank) (fev : s.fev = .blank) : s.ReadingsOk := by
  rw [State.readingsOk_iff]
  intro c
  simp only [State.channel, State.eval, scn, fev, Scn.blank_get, Fev.blank_channel]
  exact .of_blank rfl

theorem Plant.blank_overrideOk : Plant.blank.OverrideOk := fun f => by simp [Plant.blank_fan, FanRec.blank]

theorem Plant.blank_zone (z : Zone) : Plant.blank.zones.get z = .blank := by simp [Plant.blank]

theorem State.Loaded.zone {s t : State} (h : s.Loaded t) (z : Zone) : t.plant.zones.get z = .blank := by
  obtain ⟨raised, plant⟩ := h.plant
  rw [plant, Plant.raiseIf_zones, Plant.blank_zone]

theorem State.Loaded.held {s t : State} (h : s.Loaded t) (src : Source) (z : Zone) : t.held src z = none := by
  obtain ⟨straps, b, bli⟩ := h.bli
  cases src <;> simp [State.held, h.pif, h.fev, h.schedule, bli, Pif.blank, Bli.blank, ZoneEval.blank]

theorem State.Loaded.sound {s t : State} (h : s.Loaded t) : t.Sound where
  override := by
    obtain ⟨raised, plant⟩ := h.plant
    intro f
    have fan : t.plant.fan f = Plant.blank.fan f := by rw [plant, Plant.fan, Plant.raiseIf_fsq]; rfl
    rw [fan]
    exact Plant.blank_overrideOk f
  statuses z := .of_blank (h.zone z)
  duty m := by cases h.mode.symm.trans m
  sources := SourcesAgree_of_none h.zone h.held
  inhibits := InhibitsOk_of_nil (by rw [h.scn]; rfl)
  readings := ReadingsOk_of_blank h.scn h.fev

theorem State.Loaded.receive {s t : State} (h : s.Loaded t) : t.ReceiveOk := by
  obtain ⟨straps, b, bli⟩ := h.bli
  refine ⟨?_, ?_, fun _ => h.slot⟩
  · rw [bli]
    exact Nat.zero_le _
  · rw [bli]
    exact straps.isLt

theorem State.Loaded.outputs {s t : State} (h : s.Loaded t) : t.OutputsOk := by
  refine ⟨fun m => ?_, fun _ => by rw [h.pins]; rfl, fun _ => ?_⟩
  · cases h.mode.symm.trans m
  · rw [h.pins]
    exact ⟨fun z => by simp [Pins.loading], fun g => by simp [Pins.loading], rfl⟩

theorem State.unpower_zone (s : State) (z : Zone) : s.unpower.plant.zones.get z = .blank := Plant.blank_zone z

theorem State.unpower_held (s : State) (src : Source) (z : Zone) : s.unpower.held src z = none := by
  cases src <;> simp [State.held, State.unpower, Pif.blank, Bli.blank, Dck.blank, ZoneEval.blank]

/-! ## The beginning of normal operation -/

theorem FanRec.start_overrideOk (coast : Nat) (a b c : Bool) : (FanRec.start coast a b c).OverrideOk := rfl

theorem State.begin_held (s : State) (x : Lines) (src : Source) (z : Zone) : (s.begin x).held src z = none := by
  cases src <;> simp [State.held, State.begin, Pif.start, Bli.blank, ZoneEval.blank]

theorem Plant.start_duty (cfg : Settings) (fireChange defaulted : Bool) (x : Lines) (g : Group) :
    ((Plant.start cfg fireChange defaulted x).gal.groups.get g).duty = cfg.groupFans g := by
  simp [Plant.start]

theorem State.begin_sound (s : State) (x : Lines) : (s.begin x).Sound where
  override f := by
    have fan : (s.begin x).plant.fan f = _ := Plant.start_fan s.cfg s.plant.events.fireChange s.sst.defaulted.any x f
    rw [fan]
    exact FanRec.start_overrideOk _ _ _ _
  statuses z := .of_blank (Plant.start_zone ..)
  duty _ g := by
    have duty : ((s.begin x).plant.gal.groups.get g).duty = s.cfg.groupFans g := Plant.start_duty ..
    rw [duty]
    exact ⟨Fan.all_nodup.filter _, fun f => mem_groupFans⟩
  sources := SourcesAgree_of_none (fun z => Plant.start_zone ..) (s.begin_held x)
  inhibits := InhibitsOk_of_nil rfl
  readings := by
    rw [State.readingsOk_iff]
    intro c
    have channel : (s.begin x).channel c = .start (s.cfg.channels.channel.get c) := PerChannel.get_build _ _
    have eval : (s.begin x).eval c = .blank := Fev.blank_channel c
    rw [channel, eval]
    exact .of_blank rfl

theorem State.begin_receive {s : State} (x : Lines) (h : s.ReceiveOk) : (s.begin x).ReceiveOk :=
  ⟨Nat.zero_le _, h.2.1, fun _ => rfl⟩

theorem State.beginOperation_handles (s : State) (x : Lines) : (s.begin x).Handles (s.beginOperation x) := by
  have passed : (s.begin x).Handles ((s.begin x).onPlant (runPass s.cfg)) :=
    .onPlant (runPass_kept _) fun p => (runPass_chain _ p).sameClaims
  unfold State.beginOperation
  simp only
  have fallback {t : State} (h : (s.begin x).Handles t) :
      (s.begin x).Handles (if t.fallback = true then t.placeContact else t) := by
    split
    · exact h.trans t.placeContact_handed.handles
    · exact h
  refine State.Handles.trans (fallback ?_) (State.evaluateWindows_handed _).handles
  split
  · exact passed.trans (State.Handed.handles (.foldl State.placePanel_handed Zone.all _))
  · exact passed

/-- From the first state of normal operation to the end of LOADING_COMPLETE. -/
theorem State.begin_keeps (s : State) (x : Lines) : (s.begin x).Keeps (s.beginOperation x).settle :=
  (s.beginOperation_handles x).toKeeps.trans (State.settle_keeps _)

theorem State.Sound.keeps {s t : State} (h : s.Sound) (k : s.Keeps t) : t.Sound :=
  ⟨k.override h.override, k.statuses h.statuses, k.duty h.duty, k.sources h.sources, k.inhibits h.inhibits,
    k.readings h.readings⟩

/-! ## The rules, step by step -/

/-- A step that neither enters nor leaves normal operation keeps what handlings keep; any other leaves a state that
meets it. -/
theorem State.Ended.kept {s t : State} (h : s.Ended t) {I : State → Prop} (keeps : ∀ {u v : State}, u.Keeps v → I u → I v)
    (emptied : I s → I s.emptied) (loaded : s.Loaded t → I t) (began : ∀ x, I (s.begin x)) (stopped : I s.unpower)
    (before : I s) : I t := by
  cases h with
  | idle q shorter e => exact e ▸ keeps (State.setQueue_handles shorter).toKeeps before
  | settled v u start _ handled e =>
    subst e
    refine keeps (handled.toKeeps.trans u.settle_keeps) ?_
    rcases start with rfl | rfl
    · exact before
    · exact emptied before
  | quiet _ handled => exact keeps handled.toKeeps before
  | loaded l => exact loaded l
  | began x _ e => exact e ▸ keeps (s.begin_keeps x) (began x)
  | stopped e => exact e ▸ stopped

theorem State.Ended.sources {s t : State} (h : s.Ended t) : s.SourcesAgree → t.SourcesAgree :=
  h.kept (fun k => k.sources) id (fun l => l.sound.sources) (fun x => (s.begin_sound x).sources)
    (SourcesAgree_of_none s.unpower_zone s.unpower_held)

theorem State.Ended.inhibits {s t : State} (h : s.Ended t) : s.InhibitsOk → t.InhibitsOk :=
  h.kept (fun k => k.inhibits) id (fun l => l.sound.inhibits) (fun x => (s.begin_sound x).inhibits)
    (InhibitsOk_of_nil rfl)

theorem State.Ended.readings {s t : State} (h : s.Ended t) : s.ReadingsOk → t.ReadingsOk :=
  h.kept (fun k => k.readings) id (fun l => l.sound.readings) (fun x => (s.begin_sound x).readings)
    (ReadingsOk_of_blank rfl rfl)

theorem State.Ended.statuses {s t : State} (h : s.Ended t) : s.StatusesOk → t.StatusesOk :=
  h.kept (fun k => k.statuses) id (fun l => l.sound.statuses) (fun x => (s.begin_sound x).statuses)
    fun z => .of_blank (s.unpower_zone z)

theorem State.Ended.duty {s t : State} (h : s.Ended t) : s.DutyOk → t.DutyOk :=
  h.kept (fun k => k.duty) id (fun l => l.sound.duty) (fun x => (s.begin_sound x).duty) fun m => nomatch m

theorem State.Ended.receive {s t : State} (h : s.Ended t) (before : s.ReceiveOk) : t.ReceiveOk :=
  h.kept (fun k => k.receive) id (fun l => l.receive) (fun x => State.begin_receive x before)
    ⟨Nat.zero_le _, before.2.1, fun _ => rfl⟩ before

theorem State.Ended.clock {s t : State} (h : s.Ended t) (before : s.ClockOk) : t.ClockOk :=
  h.kept (fun k => k.clock) id (fun l => l.clock before) (fun _ => before)
    (by simp [State.ClockOk, State.unpower, Dck.blank]) before

/-- A part that begins normal operation, or enters LOADING, has its fire-override outputs clear. -/
theorem State.Ended.override {s t : State} (h : s.Ended t) (power : t.mode ≠ .unpowered)
    (before : s.mode ≠ .unpowered → s.plant.OverrideOk) : t.plant.OverrideOk := by
  cases h with
  | idle q shorter e => subst e; exact before power
  | settled v u start normal handled e =>
    subst e
    have s_ok := before (by rw [normal]; decide)
    refine (handled.toKeeps.trans u.settle_keeps).override ?_
    rcases start with rfl | rfl <;> exact s_ok
  | quiet _ handled => exact handled.override (before (by rw [← handled.mode]; exact power))
  | loaded l => exact l.sound.override
  | began x _ e => exact e ▸ (s.begin_keeps x).override (s.begin_sound x).override
  | stopped e => exact absurd (by rw [e]; rfl) power

theorem State.Ended.waiting {s t : State} (h : s.Ended t) (before : s.WaitingOk) : t.WaitingOk := by
  cases h with
  | idle q shorter e => exact e ▸ before
  | settled v u start normal handled e =>
    rw [e]
    refine State.settle_waitingOk (handled.mode.trans ?_)
    rcases start with rfl | rfl <;> exact normal
  | quiet other handled => exact fun m => absurd (handled.mode.symm.trans m) other
  | loaded l => exact fun m => by cases l.mode.symm.trans m
  | began x _ e => exact e ▸ State.settle_waitingOk (s.beginOperation_handles x).mode
  | stopped e => exact fun m => by rw [e] at m; cases m

theorem State.settle_outputs {s : State} (normal : s.mode = .normal) : s.settle.OutputsOk := by
  rw [State.settle, if_pos normal]
  exact State.refreshPins_says _ (s.applyIfReady_keeps.mode.trans normal)

theorem State.Ended.outputs {s t : State} (h : s.Ended t) (before : s.OutputsOk) : t.OutputsOk := by
  cases h with
  | idle q shorter e => exact e ▸ before
  | settled v u start normal handled e =>
    rw [e]
    refine State.settle_outputs (handled.mode.trans ?_)
    rcases start with rfl | rfl <;> exact normal
  | quiet other handled =>
    obtain ⟨-, closed, dark⟩ := before
    simp only [State.OutputsOk, handled.mode, handled.pins]
    exact ⟨fun m => absurd m other, closed, dark⟩
  | loaded l => exact l.outputs
  | began x _ e => exact e ▸ State.settle_outputs (s.beginOperation_handles x).mode
  | stopped e =>
    subst e
    exact ⟨nofun, fun _ => rfl, nofun⟩

theorem State.Ended.pending {s t : State} (h : s.Ended t) : t.pending = s.pending := by
  cases h with
  | idle q shorter e => rw [e]; rfl
  | settled v u start _ handled e =>
    rw [e, u.settle_keeps.pending, handled.pending]
    rcases start with rfl | rfl <;> rfl
  | quiet _ handled => exact handled.pending
  | loaded l => exact l.pending
  | began x _ e => rw [e, (s.begin_keeps x).pending]; rfl
  | stopped e => rw [e]; rfl

/-- In normal operation what the masters are told of a zone changes only with ZONE-CHANGE pending (R11, R28). -/
theorem State.Ended.zoneChange {s t : State} (h : s.Ended t) (before : s.mode = .normal) (after : t.mode = .normal) :
    t.plant.events.zoneChange = true ∨ ∀ z, (s.plant.zones.get z).Shown (t.plant.zones.get z) := by
  cases h with
  | idle q shorter e => exact .inr fun z => e ▸ .refl _
  | settled v u start _ handled e =>
    subst e
    have noted := (handled.noted.trans u.settle_keeps.noted).noted
    rcases start with rfl | rfl <;> exact noted
  | quiet other _ => exact absurd before other
  | loaded l => cases l.mode.symm.trans after
  | began x loading _ => cases loading.symm.trans before
  | stopped e => rw [e] at after; cases after

/-- What a step does, on the state with the command taken from the front of its queue. -/
theorem step_ended {s t : State} (h : step s = .next t) : ∃ cs, State.Ended { s with pending := cs } t := by
  rcases step_cases h with rfl | ⟨c, cs, h⟩
  · exact ⟨t.pending, .idle _ le_rfl rfl⟩
  · exact ⟨cs, exec_ended _ _ _ h⟩

/-! ## The statements -/

theorem exec_next (c : Instr) (s : State) : ∃ t, exec c s = .next t := by
  cases c <;> exact ⟨_, rfl⟩

/-- Settles O2: each command's meaning is a state, and every case of what a command does keeps the queue. -/
theorem everyCommandCompletes : Obligations.EveryCommandCompletes := by
  intro c s
  obtain ⟨t, h⟩ := exec_next c s
  exact ⟨t, h, (exec_ended c s t h).pending⟩

/-- Settles O8: each source's request changes its record and the claim table together. -/
theorem sourcesStayInStep : Obligations.SourcesStayInStep := by
  intro s t before h
  obtain ⟨cs, ended⟩ := step_ended h
  exact ended.sources before

/-- Settles O11: the inhibit list, the receive queue, the clock and the duty orders, handling by handling. -/
theorem listsAndClockStayInRange : Obligations.ListsAndClockStayInRange := by
  refine ⟨fun s t before h => ?_, fun s t before h => ?_, fun s t before h => ?_, fun s t before h => ?_⟩ <;>
    obtain ⟨cs, ended⟩ := step_ended h
  · exact ended.inhibits before
  · exact ended.receive before
  · exact ended.clock before
  · exact ended.duty before

/-- Settles O12: channel and evaluation records change together. -/
theorem readingsFollowTheRings : Obligations.ReadingsFollowTheRings := by
  intro s t before h
  obtain ⟨cs, ended⟩ := step_ended h
  exact ended.readings before

/-- Settles O13: the outputs are set at the end of every handling, the statuses wherever an input of theirs changes, and
ZONE-CHANGE with every change of what the masters are told of a zone. -/
theorem outputsFollowTheState : Obligations.OutputsFollowTheState := by
  refine ⟨fun s t before h => ?_, fun s t before h => ?_, fun s t z before h after changed => ?_⟩ <;>
    obtain ⟨cs, ended⟩ := step_ended h
  · exact ended.outputs before
  · exact ended.statuses before
  · rcases ended.zoneChange before after with raised | shown
    · exact raised
    · obtain ⟨directive, demand, source, status⟩ := shown z
      simp_all

/-- Settles O5: every record is blank at reset, and LOADING holds the outputs. -/
theorem resetMeetsTheInvariants : Obligations.ResetMeetsTheInvariants := by
  have loaded : State.Loaded { State.reset with dck := .blank } .reset :=
    { mode := rfl, pending := rfl, plant := ⟨false, rfl⟩, scn := rfl, fev := rfl, slot := rfl, pif := rfl, clock := id,
      schedule := rfl, bli := ⟨1, false, rfl⟩, pins := rfl }
  have sound := loaded.sound
  have off (f : Fan) : (State.reset.plant.fan f).state = .off := congrArg FanRec.state (Plant.blank_fan f)
  exact ⟨.of_blank Plant.blank_zone List.nodup_nil, Plant.blank_commandsFollow, sound.sources,
    .of_empty rfl rfl fun f => by simp [off], .of_none fun f => by simp [off], Plant.blank_holdOk, sound.inhibits,
    sound.readings, loaded.receive, by simp [State.ClockOk, State.reset, Dck.blank], loaded.outputs, sound.statuses,
    sound.override, nofun, sound.duty⟩

end Sys2Proof.Machine

/-! The receivers, the taking of frames, and the ways into and out of power and LOADING. -/

namespace Sys2Proof.Machine

/-! ## The end of a handling -/

theorem State.Plain.settle {s t : State} (h : s.Plain) (mode : t.mode = s.mode := by rfl) (sst : t.sst = s.sst := by rfl) :
    t.settle = t.refreshPins :=
  State.settle_eq (mode.trans h.1) fun v => by rw [sst]; exact h.2 v

theorem State.settle_loading {s t : State} (h : s.mode = .loading) (mode : t.mode = s.mode := by rfl) : t.settle = t :=
  State.settle_other (by rw [mode, h]; decide)

theorem State.inService_loading {s : State} {f : State → State} (h : s.mode = .loading) : s.inService f = s :=
  State.inService_other (by rw [h]; decide)

theorem State.Plain.powered {s : State} (h : s.Plain) : s.mode ≠ .unpowered := by
  rw [h.1]
  decide

/-! ## The B-link receiver (R176) -/

theorem State.linkError_normal {s : State} (h : s.mode = .normal) : s.linkError = s.raise .linkError := by
  rw [State.linkError, if_pos h]

theorem State.linkError_loading {s : State} (h : s.mode = .loading) : s.linkError = s := by
  rw [State.linkError, if_neg (by rw [h]; decide)]

/-- The B-link's record after a frame has ended: the receiver waits, with this queue and overrun latch. -/
def State.received (s : State) (q : List Frame) (latch : Bool) : State :=
  { s with bli := { s.bli with assembling := false, queue := q, latch := latch } }

section
variable {s : State} {bs : List Byte} {f : Frame}

theorem State.completeB_broken (h : parseFrame bs = none) :
    s.completeB bs = (s.received s.bli.queue s.bli.latch).linkError := by
  rw [State.completeB, h]
  rfl

theorem State.completeB_elsewhere (h : parseFrame bs = some f) (address : s.bli.address = 0 ∨ f.address.toNat ≠ s.bli.address) :
    s.completeB bs = s.received s.bli.queue s.bli.latch := by
  rw [State.completeB, h]
  exact if_neg (by tauto)

theorem State.enqueueFrame_dropped (latch : s.bli.latch = true) (h : f.kind ≠ 49#8 ∨ 2 ≤ s.bli.queue.length) :
    s.enqueueFrame f = s := by
  have full : ¬(f.kind = Request.clearLink.kind ∧ decide (s.bli.queue.length < Config.receiveQueueLength) = true) := by
    rintro ⟨kind, room⟩
    have room : s.bli.queue.length < 2 := of_decide_eq_true room
    rcases h with other | full
    · exact other kind
    · omega
  simp only [State.enqueueFrame, latch, if_true, full, if_false]

theorem State.enqueueFrame_joins (h : s.bli.latch = false ∨ f.kind = 49#8) (room : s.bli.queue.length < 2) :
    s.enqueueFrame f = s.setQueue (s.bli.queue ++ [f]) := by
  have room : s.bli.queue.length < Config.receiveQueueLength := room
  unfold State.enqueueFrame
  cases latch : s.bli.latch with
  | false => simp [room]
  | true =>
    have kind : f.kind = Request.clearLink.kind := h.resolve_left (by simp [latch])
    simp [room, kind]

theorem State.enqueueFrame_overruns (latch : s.bli.latch = false) (full : 2 ≤ s.bli.queue.length) :
    s.enqueueFrame f = ({ s with bli := { s.bli with queue := [], latch := true } }).linkError := by
  have full : ¬s.bli.queue.length < Config.receiveQueueLength := Nat.not_lt.mpr full
  simp [State.enqueueFrame, latch, full]

theorem State.completeB_here (h : parseFrame bs = some f) (own : s.bli.address ≠ 0) (address : f.address.toNat = s.bli.address) :
    s.completeB bs = (s.received s.bli.queue s.bli.latch).enqueueFrame f := by
  rw [State.completeB, h]
  exact if_pos ⟨own, address⟩

theorem State.completeB_dropped (h : parseFrame bs = some f) (own : s.bli.address ≠ 0)
    (address : f.address.toNat = s.bli.address) (latch : s.bli.latch = true) (full : f.kind ≠ 49#8 ∨ 2 ≤ s.bli.queue.length) :
    s.completeB bs = s.received s.bli.queue true := by
  rw [State.completeB_here h own address]
  exact (State.enqueueFrame_dropped (s := s.received s.bli.queue s.bli.latch) latch full).trans (by rw [latch])

theorem State.completeB_joins (h : parseFrame bs = some f) (own : s.bli.address ≠ 0)
    (address : f.address.toNat = s.bli.address) (free : s.bli.latch = false ∨ f.kind = 49#8) (room : s.bli.queue.length < 2) :
    s.completeB bs = s.received (s.bli.queue ++ [f]) s.bli.latch := by
  rw [State.completeB_here h own address]
  exact State.enqueueFrame_joins free room

theorem State.completeB_overruns (h : parseFrame bs = some f) (own : s.bli.address ≠ 0)
    (address : f.address.toNat = s.bli.address) (free : s.bli.latch = false) (full : 2 ≤ s.bli.queue.length) :
    s.completeB bs = (s.received [] true).linkError := by
  rw [State.completeB_here h own address]
  exact State.enqueueFrame_overruns free full

end

theorem State.received_linkError {s : State} (h : s.mode = .normal) (q : List Frame) (latch : Bool) :
    (s.received q latch).linkError = (s.received q latch).raise .linkError := State.linkError_normal h

theorem exec_bFrameComplete {s : State} (power : s.mode ≠ .unpowered) (bs : List Byte) :
    exec (.bFrameComplete (leadOctet :: bs)) s = .next (s.completeB bs).settle := by
  show Host.Outcome.next (if s.mode = .unpowered then s else (s.completeB bs).settle) = _
  rw [if_neg power]

/-- Settles O26, by the cases of the receiver's rules. -/
theorem receiverQueuesFramesForThePart : Obligations.ReceiverQueuesFramesForThePart := by
  intro bs s plain
  simp only
  rw [exec_bFrameComplete plain.powered]
  refine ⟨fun broken => ?_, fun f parsed => ⟨fun elsewhere => ?_, fun own here => ⟨fun latch full => ?_, fun free room => ?_,
    fun free full => ?_⟩⟩⟩
  · rw [State.completeB_broken broken, State.received_linkError plain.1, plain.settle]
    rfl
  · rw [State.completeB_elsewhere parsed elsewhere, plain.settle]
    rfl
  · rw [State.completeB_dropped parsed own here latch full, plain.settle]
    rfl
  · rw [State.completeB_joins parsed own here free room, plain.settle]
    rfl
  · rw [State.completeB_overruns parsed own here free full, State.received_linkError plain.1, plain.settle]
    rfl

theorem State.received_loading {s : State} (h : s.mode = .loading) (q : List Frame) (latch : Bool) :
    (s.received q latch).linkError = s.received q latch := State.linkError_loading h

/-! ## Lead bytes and broken frames (R192) -/

theorem State.startFrame_waiting {s : State} {l : Link} (h : s.assembling l = false) :
    s.startFrame l = s.setAssembling l true := by simp [State.startFrame, h]

theorem State.breakFrame_waiting {s : State} {l : Link} (h : s.assembling l = false) : s.breakFrame l = s := by
  simp [State.breakFrame, h]

theorem State.breakFrame_bLink {s : State} (h : s.bli.assembling = true) :
    s.breakFrame .bLink = (s.setAssembling .bLink false).linkError := by
  simp [State.breakFrame, State.assembling, h]

theorem State.breakFrame_fLink {s : State} (h : s.fif.assembling = true) :
    s.breakFrame .fLink = s.setAssembling .fLink false := by
  simp [State.breakFrame, State.assembling, h]

theorem exec_leadByte {s : State} (power : s.mode ≠ .unpowered) (l : Link) :
    exec (.leadByte l) s = .next (s.startFrame l).settle := by
  show Host.Outcome.next (if s.mode = .unpowered then s else (s.startFrame l).settle) = _
  rw [if_neg power]

theorem exec_breakFrame {s : State} (power : s.mode ≠ .unpowered) {c : Link → Instr}
    (h : c ∈ [Instr.characterFramingError, Instr.interbyteGapTimeout]) (l : Link) :
    exec (c l) s = .next (s.breakFrame l).settle := by
  have ended : Host.Outcome.next (if s.mode = .unpowered then s else (s.breakFrame l).settle) =
      (.next (s.breakFrame l).settle : Answered) := by rw [if_neg power]
  rcases List.mem_pair.mp h with rfl | rfl <;> exact ended

/-- Settles O27, by link and receiver. -/
theorem brokenFramesAreDiscarded : Obligations.BrokenFramesAreDiscarded := by
  intro s plain
  refine ⟨fun l waiting => ?_, fun c mem => ⟨fun busy => ?_, fun busy => ?_, fun l waiting => ?_⟩⟩
  · rw [exec_leadByte plain.powered, State.startFrame_waiting waiting]
    cases l <;> rw [plain.settle]
  · rw [exec_breakFrame plain.powered mem, State.breakFrame_bLink busy,
      State.linkError_normal (s := s.setAssembling .bLink false) plain.1, plain.settle]
  · rw [exec_breakFrame plain.powered mem, State.breakFrame_fLink busy, plain.settle]
  · rw [exec_breakFrame plain.powered mem, State.breakFrame_waiting waiting, plain.settle]

/-! ## Taken frames (R177) -/

/-- The command of a request is the handling of its frame; a RESTART's reads the straps its operand gives. -/
theorem exec_command (r : Request) (restart : r ≠ .restart) (straps : BitVec 5) (s : State) :
    exec (r.command straps) s = .next (s.answer r.kind (requestHandler r)) := by
  cases r with
  | restart => exact absurd rfl restart
  | _ => rfl

theorem exec_restart (straps : BitVec 5) (s : State) :
    exec (.restart straps) s = .next (s.answer Request.restart.kind (askRestart straps.toNat)) := rfl

theorem State.answer_loading {s : State} (address : s.bli.address ≠ 0) (loading : s.mode = .loading) (k : Byte) (h : Handler) :
    s.answer k h = s.sendB (replyFrame s.bli.address k (.refused .busy)) := by
  simp only [State.answer, address, if_false, loading]

theorem State.answer_unaddressed {s : State} (h : s.bli.address = 0) (k : Byte) (x : Handler) : s.answer k x = s := by
  rw [State.answer, if_pos h]

/-- Outside normal operation, and for a part without an address, every request is handled alike. -/
theorem State.answer_other {s : State} (h : s.mode = .loading ∨ s.bli.address = 0) (k : Byte) (x y : Handler) :
    s.answer k x = s.answer k y := by
  by_cases address : s.bli.address = 0
  · rw [State.answer_unaddressed address, State.answer_unaddressed address]
  · have loading := h.resolve_right address
    rw [State.answer_loading address loading, State.answer_loading address loading]

theorem State.answer_normal {s : State} (address : s.bli.address ≠ 0) (normal : s.mode = .normal) (k : Byte) (h : Handler) :
    s.answer k h = ((h s.hearB).1.sendB (replyFrame s.bli.address k (h s.hearB).2)).settle := by
  simp only [State.answer, address, if_false, normal]

theorem State.take_some {s : State} {k : Byte} {p : List Byte} {r : Request} (h : decodeRequest k p = some r) :
    s.take k p = s.answer k (requestHandler r) := by rw [State.take, h]

theorem State.take_none {s : State} {k : Byte} {p : List Byte} (h : decodeRequest k p = none) :
    s.take k p = s.answer k askUnknown := by rw [State.take, h]

theorem exec_bFrameTaken {s : State} (power : s.mode ≠ .unpowered) : exec .bFrameTaken s = .next s.takeHead := by
  show Host.Outcome.next (if s.mode = .unpowered then s else s.takeHead) = _
  rw [if_neg power]

theorem State.takeHead_cons {s : State} {f : Frame} {fs : List Frame} (h : s.bli.queue = f :: fs) :
    s.takeHead = (s.setQueue fs).take f.kind f.payload := by rw [State.takeHead, h]

/-- A RESTART of a taken frame is the command RESTART on the state that has counted the frame. -/
theorem State.answer_restartFrame_eq {s : State} (normal : s.mode = .normal) (address : s.bli.address ≠ 0) (k : Byte) :
    s.answer k askRestartFrame = s.countRestart.answer k (askRestart (Config.strapLines s.wire.restarts).toNat) := by
  rw [State.answer_normal address normal, State.answer_normal (s := s.countRestart) address normal]
  rfl

/-- Settles O28: a frame's kind and payload decide its request, and both commands handle it by the same rule. -/
theorem takenFrameRunsItsRequest : Obligations.TakenFrameRunsItsRequest := by
  intro s power
  refine ⟨fun empty => ?_, fun f fs queue => ⟨fun r spelt other straps => ?_, fun spelt normal address => ?_, fun unspelt => ?_⟩⟩
  · rw [exec_bFrameTaken power, State.takeHead, empty]
  all_goals rw [exec_bFrameTaken power, State.takeHead_cons queue]
  · have kind := (kind_payload_of_decodeRequest spelt).1
    refine ⟨_, rfl, ?_⟩
    rw [State.take_some spelt, ← kind]
    by_cases restart : r = .restart
    · subst restart
      refine (exec_restart straps _).trans (congrArg _ (State.answer_other ?_ _ _ _))
      exact other.resolve_left (fun n => n rfl)
    · exact exec_command r restart straps _
  · have kind := (kind_payload_of_decodeRequest spelt).1
    refine ⟨_, rfl, ?_⟩
    rw [State.take_some spelt, ← kind]
    exact (exec_restart _ _).trans (congrArg _ (State.answer_restartFrame_eq (s := s.setQueue fs) normal address _).symm)
  · exact ⟨_, rfl, rfl⟩

/-! ## Refusals and replies (R177, R192, R193) -/

theorem State.Addressed.normal {s : State} (h : s.Addressed) : s.mode = .normal := h.1.1

/-- A taken frame whose handling changes nothing is answered, and no more. -/
theorem State.answer_replied {s : State} (h : s.Addressed) {k : Byte} {x : Handler} {a : Answer} (e : x s.hearB = (s.hearB, a)) :
    s.answer k x = s.replied k a := by
  rw [State.answer_normal h.2 h.1.1, e, h.1.settle]
  rfl

theorem Zone.ofNumber?_none {n : Nat} (h : n < 1 ∨ 8 < n) : Zone.ofNumber? n = none := by
  unfold Zone.ofNumber?
  split
  case h_9 => rfl
  all_goals omega

theorem Group.ofNumber?_none {n : Nat} (h : n < 1 ∨ 4 < n) : Group.ofNumber? n = none := by
  unfold Group.ofNumber?
  split
  case h_5 => rfl
  all_goals omega

theorem Fan.ofNumber?_none {n : Nat} (h : n < 1 ∨ 12 < n) : Fan.ofNumber? n = none := by
  unfold Fan.ofNumber?
  split
  case h_13 => rfl
  all_goals omega

theorem Channel.ofNumber?_none {n : Nat} (h : n < 1 ∨ 16 < n) : Channel.ofNumber? n = none := by
  unfold Channel.ofNumber?
  split
  case h_17 => rfl
  all_goals omega

theorem withZone_none {z : Byte} (h : Zone.ofNumber? z.toNat = none) (x : Zone → Handler) (s : State) :
    withZone z x s = (s, .refused .range) := by rw [withZone, h]

theorem withGroup_none {g : Byte} (h : Group.ofNumber? g.toNat = none) (x : Group → Handler) (s : State) :
    withGroup g x s = (s, .refused .range) := by rw [withGroup, h]

theorem withFan_none {f : Byte} (h : Fan.ofNumber? f.toNat = none) (x : Fan → Handler) (s : State) :
    withFan f x s = (s, .refused .range) := by rw [withFan, h]

theorem withChannel_none {c : Byte} (h : Channel.ofNumber? c.toNat = none) (x : Channel → Handler) (s : State) :
    withChannel c x s = (s, .refused .range) := by rw [withChannel, h]

/-- The requests that name a zone, a group, a fan or a channel by a number that names none. -/
def NamesNothing : Request → Prop
  | .readZone n | .claimExhaust n _ | .claimShut n | .release n => Zone.ofNumber? n.toNat = none
  | .readGroup n => Group.ofNumber? n.toNat = none
  | .readFan n | .lockFan n | .unlockFan n | .resetFan n => Fan.ofNumber? n.toNat = none
  | .readChannel n | .inhibit n _ | .restore n => Channel.ofNumber? n.toNat = none
  | _ => False

theorem NamesNothing.refused {r : Request} (h : NamesNothing r) (s : State) :
    requestHandler r s = (s, .refused .range) := by
  cases r
  case readZone | claimExhaust | claimShut | release =>
    simp only [requestHandler, askZone, askExhaust, askShut, askRelease, withZone_none h]
  case readGroup => simp only [requestHandler, askGroup, withGroup_none h]
  case readFan | lockFan | unlockFan | resetFan => simp only [requestHandler, askFan, askLock, askUnlock, askReset, withFan_none h]
  case readChannel | inhibit | restore => simp only [requestHandler, askChannel, askInhibit, askRestore, withChannel_none h]
  all_goals exact h.elim

theorem exec_outOfRange {s : State} (h : s.Addressed) {r : Request} (out : NamesNothing r) (straps : BitVec 5) :
    exec (r.command straps) s = .next (s.replied r.kind (.refused .range)) := by
  have restart : r ≠ .restart := by rintro rfl; exact out
  rw [exec_command r restart, State.answer_replied h (out.refused _)]

theorem replied_eq (s : State) (k : Byte) (a : Answer) : s.replied k a = { s with
    bli := { s.bli with link := .up, timer := some s.cfg.timers.bLink }
    wire := (s.replied k a).wire, pins := (s.replied k a).pins } := rfl

/-- Settles O29. -/
theorem refusedFramesRestartSupervision : Obligations.RefusedFramesRestartSupervision := by
  refine ⟨fun s h => ⟨fun k p unspelt => ?_, ?_⟩, fun s n d w h => ⟨fun out r mem => ?_, fun out => ?_, fun out r mem => ?_,
    fun out r mem => ?_⟩, fun s k a => ⟨⟨rfl, rfl, rfl⟩, replied_eq s k a⟩, fun address k a => ?_,
    fun r b d => ⟨rfl, rfl, rfl, rfl⟩⟩
  · show Host.Outcome.next (s.take k p) = _
    rw [State.take_none unspelt, State.answer_replied h rfl]
  · show Host.Outcome.next (s.answer Request.clearLink.kind askClearLink) = _
    rw [State.answer_normal h.2 h.normal, h.1.settle]
    rfl
  · refine exec_outOfRange h ?_ _
    have none := Zone.ofNumber?_none out
    simp only [List.mem_cons, List.not_mem_nil, or_false] at mem
    rcases mem with rfl | rfl | rfl | rfl <;> exact none
  · exact exec_outOfRange h (r := .readGroup n) (Group.ofNumber?_none out) 0
  · refine exec_outOfRange h ?_ _
    have none := Fan.ofNumber?_none out
    simp only [List.mem_cons, List.not_mem_nil, or_false] at mem
    rcases mem with rfl | rfl | rfl | rfl <;> exact none
  · refine exec_outOfRange h ?_ _
    have none := Channel.ofNumber?_none out
    simp only [List.mem_cons, List.not_mem_nil, or_false] at mem
    rcases mem with rfl | rfl | rfl <;> exact none
  · unfold replyFrame Answer.payload replyKind
    cases a.result <;> rfl

/-! ## LOADING (R52, R177, R185) -/

/-- The part in LOADING takes no event of the field side, the panel or a timer. -/
theorem exec_loading_idle {s : State} (h : s.mode = .loading) {c : Instr} {f : State → State}
    (e : exec c s = .next (s.inService f)) : exec c s = .next s := by
  rw [e, State.inService_loading h]

/-- The clock counts during LOADING, and no window is evaluated (R169, R174). -/
theorem State.minuteBoundary_loading {s : State} (loading : s.mode = .loading) (set : s.dck.isSet = true)
    (second : s.dck.second = 59) : s.minuteBoundary = { s with dck := s.dck.nextMinute } := by
  rw [State.minuteBoundary, if_pos ⟨set, second⟩, State.evaluateInService, if_neg]
  show s.mode ≠ .normal
  rw [loading]
  decide

theorem State.minuteBoundary_idle {s : State} (h : s.dck.isSet = false ∨ s.dck.second ≠ 59) : s.minuteBoundary = s := by
  rw [State.minuteBoundary, if_neg]
  rintro ⟨set, second⟩
  rcases h with unset | other
  · simp [set] at unset
  · exact other second

theorem State.clockSecond_unset {s : State} (h : s.dck.isSet = false) : s.clockSecond = s := by
  simp [State.clockSecond, h]

theorem State.clockSecond_counts {s : State} (set : s.dck.isSet = true) (second : s.dck.second ≠ 59) :
    s.clockSecond = { s with dck := { s.dck with second := s.dck.second + 1 } } := by
  simp [State.clockSecond, set, second]

theorem State.clockSecond_boundary {s : State} (set : s.dck.isSet = true) (second : s.dck.second = 59) :
    s.clockSecond = s.minuteBoundary := by
  simp [State.clockSecond, set, second]

theorem Dck.nextMinute_eq (c : Dck) : c.nextMinute = { c with
    second := 0, minute := if c.minute = 1439 then 0 else c.minute + 1
    day := if c.minute = 1439 then (if c.day = 7 then 1 else c.day + 1) else c.day } := by
  unfold Dck.nextMinute
  split <;> rfl

section
variable {s : State} (power : s.mode ≠ .unpowered)
include power

theorem exec_clockSecond : exec .clockSecond s = .next s.clockSecond.settle := by
  show Host.Outcome.next (if s.mode = .unpowered then s else s.clockSecond.settle) = _
  rw [if_neg power]

theorem exec_minuteBoundary : exec .minuteBoundary s = .next s.minuteBoundary.settle := by
  show Host.Outcome.next (if s.mode = .unpowered then s else s.minuteBoundary.settle) = _
  rw [if_neg power]

theorem exec_fFrameReceived (bs : List Byte) : exec (.fFrameReceived (leadOctet :: bs)) s = .next (s.completeF bs).settle := by
  show Host.Outcome.next (if s.mode = .unpowered then s else (s.completeF bs).settle) = _
  rw [if_neg power]

end

/-- Settles O23: what goes on during LOADING, and nothing without power. -/
theorem loadingAnswersBusyAndTakesNoInput : Obligations.LoadingAnswersBusyAndTakesNoInput := by
  refine ⟨fun s loading => ?_, fun s c off reset loss => exec_unpowered off reset loss⟩
  have power : s.mode ≠ .unpowered := by rw [loading]; decide
  refine ⟨fun address straps r k p => ⟨?_, ?_, fun f fs queue => ?_⟩, fun bs => ⟨?_, fun broken => ?_, fun f parsed =>
    ⟨fun elsewhere => ?_, fun own here => ⟨fun latch full => ?_, fun free room => ?_, fun free full => ?_⟩⟩⟩,
    fun l => ⟨fun waiting => ?_, fun c mem => ⟨fun busy => ?_, fun waiting => ?_⟩⟩, fun unset => ?_, fun set second => ?_,
    fun idle => ?_, fun set second c mem => ?_, fun z f c q b x e i j k mem => ?_⟩
  · by_cases restart : r = .restart
    · subst restart
      exact (exec_restart straps s).trans (congrArg _ (State.answer_loading address loading _ _))
    · rw [exec_command r restart, State.answer_loading address loading]
      rfl
  · show Host.Outcome.next (s.take k p) = _
    cases spelt : decodeRequest k p with
    | some r =>
      rw [State.take_some spelt, State.answer_loading address loading]
      rfl
    | none =>
      rw [State.take_none spelt, State.answer_loading address loading]
      rfl
  · rw [exec_bFrameTaken power, State.takeHead_cons queue]
    cases spelt : decodeRequest f.kind f.payload with
    | some r =>
      rw [State.take_some spelt, State.answer_loading (s := s.setQueue fs) address loading]
      rfl
    | none =>
      rw [State.take_none spelt, State.answer_loading (s := s.setQueue fs) address loading]
      rfl
  · have discarded : s.completeF bs = s.setAssembling .fLink false := if_neg (by rw [loading]; decide)
    rw [exec_fFrameReceived power, discarded, State.settle_loading loading]
    rfl
  all_goals try rw [exec_bFrameComplete power]
  · rw [State.completeB_broken broken, State.received_loading loading, State.settle_loading loading]
    rfl
  · rw [State.completeB_elsewhere parsed elsewhere, State.settle_loading loading]
    rfl
  · rw [State.completeB_dropped parsed own here latch full, State.settle_loading loading]
    rfl
  · rw [State.completeB_joins parsed own here free room, State.settle_loading loading]
    rfl
  · rw [State.completeB_overruns parsed own here free full, State.received_loading loading, State.settle_loading loading]
    rfl
  · rw [exec_leadByte power, State.startFrame_waiting waiting]
    cases l <;> rw [State.settle_loading loading]
  · have either : ∃ x ∈ [Instr.characterFramingError, Instr.interbyteGapTimeout], c = x l := by
      simpa [List.mem_pair] using mem
    obtain ⟨x, listed, rfl⟩ := either
    rw [exec_breakFrame power listed]
    cases l with
    | bLink =>
      rw [State.breakFrame_bLink busy, State.linkError_loading (s := s.setAssembling .bLink false) loading,
        State.settle_loading loading]
    | fLink => rw [State.breakFrame_fLink busy, State.settle_loading loading]
  · have either : ∃ x ∈ [Instr.characterFramingError, Instr.interbyteGapTimeout], c = x l := by
      simpa [List.mem_pair] using mem
    obtain ⟨x, listed, rfl⟩ := either
    rw [exec_breakFrame power listed, State.breakFrame_waiting waiting, State.settle_loading loading]
  · rw [exec_clockSecond power, State.clockSecond_unset unset, State.settle_loading loading]
  · rw [exec_clockSecond power, State.clockSecond_counts set second, State.settle_loading loading]
  · rw [exec_minuteBoundary power, State.minuteBoundary_idle idle, State.settle_loading loading]
  · have boundary := State.minuteBoundary_loading loading set second
    rcases List.mem_pair.mp mem with rfl | rfl
    · rw [exec_clockSecond power, State.clockSecond_boundary set second, boundary, State.settle_loading loading,
        Dck.nextMinute_eq]
    · rw [exec_minuteBoundary power, boundary, State.settle_loading loading, Dck.nextMinute_eq]
  · simp only [List.mem_cons, List.not_mem_nil, or_false] at mem
    rcases mem with rfl | rfl | rfl | rfl | rfl | rfl | rfl | rfl | rfl | rfl | rfl | rfl | rfl | rfl | rfl | rfl | rfl |
      rfl | rfl | rfl | rfl | rfl | rfl | rfl | rfl | rfl | rfl | rfl <;> exact exec_loading_idle loading rfl

end Sys2Proof.Machine

/-! Power-on, restart and loss of power. -/

namespace Sys2Proof.Machine

/-- Settles O25: the state of a part without power, record by record. -/
theorem powerLossKeepsTheStore : Obligations.PowerLossKeepsTheStore := by
  intro s
  refine ⟨s.unpower, rfl, rfl, rfl, rfl, rfl, rfl, rfl, fun z => ⟨?_, ?_⟩, fun f => ?_, rfl, rfl, rfl, rfl, rfl, rfl, rfl,
    rfl, rfl, rfl, rfl⟩
  · rw [s.unpower_zone]
    rfl
  · simp [State.unpower]
  · simp [State.unpower, Plant.fan]

/-- A request refused with the present state answers it, and no more, but for a written block that then comes in. -/
theorem State.WaitingOk.settle {s t : State} (h : s.WaitingOk) (normal : s.mode = .normal) (mode : t.mode = s.mode := by rfl)
    (plant : t.plant = s.plant := by rfl) (sst : t.sst = s.sst := by rfl) : t.settle = t.refreshPins := by
  have idle : t.applyIfReady = t := by
    unfold State.applyIfReady
    split
    · rename_i v waits
      obtain ⟨own, unmet⟩ := h normal v (sst ▸ waits)
      have condition : t.commitCondition = false := by
        rw [← Bool.not_eq_true, State.commitCondition_iff, plant, not_and_or]
        push Not
        exact unmet
      simp [condition, v.protected_iff.mpr own]
    · rfl
  rw [State.settle, if_pos (mode.trans normal), State.finish, idle]

/-- Settles O24: the two refusals, and the state a taken restart leaves. -/
theorem restartKeepsClockAndContact : Obligations.RestartKeepsClockAndContact := by
  intro straps s normal address
  have answer := (exec_restart straps s).trans (congrArg _ (State.answer_normal address normal _ _))
  refine ⟨fun waits busy => ?_, fun free claims => ?_, fun free quiet => ?_⟩
  · have refused : askRestart straps.toNat s.hearB = (s.hearB, .refused .busy) := if_pos busy
    rw [answer, refused, waits.settle normal]
    rfl
  · have refused : askRestart straps.toNat s.hearB = (s.hearB, .refused .state) := by
      unfold askRestart
      rw [if_neg (Bool.not_eq_true _ ▸ free)]
      exact if_pos claims
    have still : s.WaitingOk := fun _ v e => by
      rw [State.inFlight, e] at free
      cases free
    rw [answer, refused, still.settle normal]
    rfl
  · have taken : askRestart straps.toNat s.hearB = (s.hearB.restart straps.toNat, .done) := by
      unfold askRestart
      rw [if_neg (Bool.not_eq_true _ ▸ free)]
      exact if_neg (Bool.not_eq_true _ ▸ quiet)
    rw [answer, taken, State.settle_other (show Mode.loading ≠ .normal by decide)]
    rfl

/-! ## Power-on reset -/

theorem Sst.load_block (x : Sst) (b : Block) : x.load.defaulted.get b = !x.valid.get b ∧
    x.load.inForce.copy b = if x.valid.get b then x.stored.copy b else factory.copy b := by
  cases b <;> exact ⟨rfl, apply_ite _ _ _ _⟩

/-- Settles O21: the state in LOADING, and the factory defaults read item by item. -/
theorem powerOnLoadsTheSettings : Obligations.PowerOnLoadsTheSettings := by
  refine ⟨fun straps s => ⟨s.powerOn straps.toNat, rfl, ?_, rfl, rfl, rfl, s.sst.load_block⟩, by decide, by decide,
    fun c => ?_, fun z => ?_, by decide, by decide, fun w => ?_⟩
  · have left : (!s.plant.fireOrder.isEmpty) = decide (s.plant.fireOrder ≠ []) := by
      cases s.plant.fireOrder <;> rfl
    rw [← left]
    unfold State.powerOn
    cases s.plant.fireOrder.isEmpty <;> rfl
  · cases c <;> decide
  · cases z <;> decide
  · cases w <;> decide

end Sys2Proof.Machine

/-! Claims, the budget cap, the clock and LOCK-FAN. -/

namespace Sys2Proof.Machine

/-! ## Requests that are carried out -/

theorem withZone_number {n : Byte} {z : Zone} (h : n.toNat = z.number) (x : Zone → Handler) (s : State) :
    withZone n x s = x z s := by rw [withZone, h, Zone.ofNumber?_number]

theorem withGroup_number {n : Byte} {g : Group} (h : n.toNat = g.number) (x : Group → Handler) (s : State) :
    withGroup n x s = x g s := by rw [withGroup, h, Group.ofNumber?_number]

theorem withFan_number {n : Byte} {f : Fan} (h : n.toNat = f.number) (x : Fan → Handler) (s : State) :
    withFan n x s = x f s := by rw [withFan, h, Fan.ofNumber?_number]

theorem withChannel_number {n : Byte} {c : Channel} (h : n.toNat = c.number) (x : Channel → Handler) (s : State) :
    withChannel n x s = x c s := by rw [withChannel, h, Channel.ofNumber?_number]

/-- The state after a request was carried out and answered. -/
def State.answered (s t : State) (k : Byte) (a : Answer) : State :=
  (t.sendB (replyFrame s.bli.address k a)).refreshPins

/-- A request that leaves the mode and the settings store alone ends with its own effect and its reply. -/
theorem State.answer_answered {s t : State} (h : s.Addressed) {k : Byte} {x : Handler} {a : Answer} (e : x s.hearB = (t, a))
    (mode : t.mode = s.mode := by rfl) (sst : t.sst = s.sst := by rfl) : s.answer k x = s.answered t k a := by
  rw [State.answer_normal h.2 h.normal, e]
  exact h.1.settle mode sst

/-- The command of a request, by what the request's handling gives. -/
theorem exec_answered (r : Request) {s t : State} (h : s.Addressed) {a : Answer} (e : requestHandler r s.hearB = (t, a))
    (mode : t.mode = s.mode := by rfl) (sst : t.sst = s.sst := by rfl) (restart : r ≠ .restart := by rintro ⟨⟩) :
    exec (r.command 0) s = .next (s.answered t r.kind a) :=
  (exec_command r restart 0 s).trans (congrArg _ (State.answer_answered h e mode sst))

/-- The command of a request that changes nothing and is answered. -/
theorem exec_replied (r : Request) {s : State} (h : s.Addressed) {a : Answer} (e : requestHandler r s.hearB = (s.hearB, a))
    (restart : r ≠ .restart := by rintro ⟨⟩) : exec (r.command 0) s = .next (s.replied r.kind a) :=
  (exec_command r restart 0 s).trans (congrArg _ (State.answer_replied h e))

theorem State.answered_replied {s t : State} (k : Byte) (a : Answer) (wire : t.wire = s.wire := by rfl)
    (link : t.bli.link = .up := by rfl) (timer : t.bli.timer = some s.cfg.timers.bLink := by rfl) :
    s.Replied (s.answered t k a) k a :=
  ⟨congrArg (fun w : Wire => { w with bLink := (replyFrame s.bli.address k a).bytes :: w.bLink }) wire, link, timer⟩

/-- A request that touches nothing but the plant. -/
theorem exec_onPlant (r : Request) {s : State} (h : s.Addressed) {p : Plant} {a : Answer}
    (e : requestHandler r s.hearB = ({ s.hearB with plant := p }, a)) (restart : r ≠ .restart := by rintro ⟨⟩) :
    ∃ t, exec (r.command 0) s = .next t ∧ s.Replied t r.kind a ∧ t.plant = p ∧ t = { s with
      plant := t.plant, wire := t.wire, pins := t.pins
      bli := { s.bli with link := t.bli.link, timer := t.bli.timer } } :=
  ⟨_, exec_answered r h e (restart := restart), State.answered_replied _ _, rfl, rfl⟩

/-! ## BMS claims (R180) -/

theorem requestHandler_claimExhaust {n : Byte} {z : Zone} (h : n.toNat = z.number) (d : Byte) (s : State) :
    requestHandler (.claimExhaust n d) s = if d.toNat = 0 then (s.releaseBms z, .done)
      else (s.claimBms z (.exhaust (min d.toNat 100)), .doneClamped (decide (100 < d.toNat))) := by
  simp only [requestHandler, askExhaust, withZone_number h]

theorem requestHandler_claimShut {n : Byte} {z : Zone} (h : n.toNat = z.number) (s : State) :
    requestHandler (.claimShut n) s = (s.claimBms z .shut, .done) := by
  simp only [requestHandler, askShut, withZone_number h]

theorem requestHandler_release {n : Byte} {z : Zone} (h : n.toNat = z.number) (s : State) :
    requestHandler (.release n) s = (s.releaseBms z, .done) := by
  simp only [requestHandler, askRelease, withZone_number h]

/-- A request that is handled as RELEASE z. -/
theorem exec_release (r : Request) {s : State} {z : Zone} (h : s.Addressed)
    (e : requestHandler r s.hearB = (s.hearB.releaseBms z, .done)) (restart : r ≠ .restart := by rintro ⟨⟩) :
    (s.bli.held.get z = none → exec (r.command 0) s = .next (s.replied r.kind .done)) ∧
      ((s.bli.held.get z).isSome = true → ∃ t, exec (r.command 0) s = .next t ∧
        s.plant.Requested s.cfg z (withoutSource .bms (s.plant.zones.get z).claims) t.plant ∧
        s.Replied t r.kind .done ∧
        t = { s with
          plant := t.plant, wire := t.wire, pins := t.pins
          bli := { s.bli with held := s.bli.held.set z none, link := t.bli.link, timer := t.bli.timer } }) := by
  refine ⟨fun free => ?_, fun held => ?_⟩
  · have idle : s.hearB.releaseBms z = s.hearB := if_neg (by simp [State.hearB, free])
    exact exec_replied r h (e.trans (by rw [idle])) restart
  · have taken : s.hearB.releaseBms z = (s.hearB.holdBms z none).remove z .bms := if_pos held
    exact ⟨_, exec_answered r h (e.trans (by rw [taken])) (restart := restart), remove_spec _ z _ _,
      State.answered_replied _ _, rfl⟩

/-- Settles O31: the claim table by the rule of a request, the record of claims held by evaluation. -/
theorem bmsClaimsComeAndGo : Obligations.BmsClaimsComeAndGo := by
  refine ⟨fun s z n h number => ⟨fun d positive => ?_, ?_⟩, fun s z n h number x mem => ?_, fun src l => ⟨rfl, rfl⟩,
    fun c l => enterClaim_split c _, fun k g d => rfl⟩
  · have carried := (requestHandler_claimExhaust number d s.hearB).trans (if_neg (by omega))
    exact ⟨_, exec_answered (.claimExhaust n d) h carried, ⟨place_spec _ z _ _, rfl⟩, State.answered_replied _ _⟩
  · exact ⟨_, exec_answered (.claimShut n) h (requestHandler_claimShut number _), ⟨place_spec _ z _ _, rfl⟩,
      State.answered_replied _ _⟩
  · rcases List.mem_pair.mp mem with rfl | rfl
    · exact exec_release (.release n) h (requestHandler_release number _)
    · exact exec_release (.claimExhaust n 0#8) h ((requestHandler_claimExhaust number _ _).trans (if_pos rfl))

/-! ## The write of a commit (R190) -/

/-- The write of a commit completes, and its block comes into force at once. -/
theorem exec_settingsWriteComplete {s : State} {v : BlockValue} (normal : s.mode = .normal)
    (session : s.sst.session = .committing v false) (ready : v.block.protected? = false ∨ s.commitCondition = true) :
    exec .settingsWriteComplete s = .next (s.completeWrite.applyBlock v).refreshPins := by
  have written : s.completeWrite = { s with sst := { s.sst with
      stored := s.sst.stored.put v, valid := s.sst.valid.set v.block true, session := .committing v true } } := by
    rw [State.completeWrite, session]
  have applied : s.completeWrite.applyIfReady = s.completeWrite.applyBlock v := by
    rw [written]
    exact if_pos (by rw [Bool.or_eq_true, Bool.not_eq_true']; exact ready)
  show Host.Outcome.next (s.inService State.completeWrite) = _
  rw [State.inService, if_pos normal, State.settle, if_pos (by rw [written]; exact normal), State.finish, applied]

theorem State.completeWrite_eq {s : State} {v : BlockValue} (session : s.sst.session = .committing v false) :
    s.completeWrite = { s with sst := { s.sst with
      stored := s.sst.stored.put v, valid := s.sst.valid.set v.block true, session := .committing v true } } := by
  rw [State.completeWrite, session]

/-! ## The budget in force (R123) -/

theorem budgetFor_eq (cfg : Settings) (cap : Option Nat) (p : Plant) :
    budgetFor cfg cap p = if p.supplyHold then 0 else match p.spm.state with
      | .mains => min cfg.budget.mains (cap.getD cfg.budget.mains)
      | .generator => cfg.budget.generator
      | .transfer => 0 := by
  unfold budgetFor
  cases p.spm.state <;> cases cap <;> simp

theorem budgetChange_same (cfg : Settings) (cap : Option Nat) (p : Plant) :
    (setBudgetInForce cfg cap p).SameFireSide (budgetChange cfg cap p) := by
  unfold budgetChange
  dsimp only
  split
  · exact .refl _
  · exact (runPass_chain cfg _).same

@[simp] theorem budgetChange_budget (cfg : Settings) (cap : Option Nat) (p : Plant) :
    (budgetChange cfg cap p).gal.budget = budgetFor cfg cap p := (budgetChange_same cfg cap p).budget

theorem budgetChange_idle {cfg : Settings} {cap : Option Nat} {p : Plant} (h : budgetFor cfg cap p = p.gal.budget) :
    budgetChange cfg cap p = p := by
  unfold budgetChange
  rw [if_pos (show (setBudgetInForce cfg cap p).gal.budget = p.gal.budget from h), setBudgetInForce, h]

/-- Settles O32. -/
theorem budgetCapBoundsTheBudget : Obligations.BudgetCapBoundsTheBudget := by
  refine ⟨fun s h => ?_, fun s v normal session => ?_⟩
  · have capped (cap : Option Nat) (free : s.plant.supplyHold = false) (mains : s.plant.spm.state = .mains) :
        (budgetChange s.cfg cap s.plant).gal.budget = min s.cfg.budget.mains (cap.getD s.cfg.budget.mains) := by
      rw [budgetChange_budget, budgetFor_eq, free, mains]
      rfl
    refine ⟨fun cap => ⟨_, exec_answered (.setBudget cap) h rfl, ⟨budgetChange_same _ _ _, capped _, rfl⟩,
      State.answered_replied _ _⟩, _, exec_answered .clearBudget h rfl, ⟨budgetChange_same _ _ _, capped _, rfl⟩,
      State.answered_replied _ _⟩
  · intro budget
    have inForce : budgetFor { s.cfg with budget := v } s.bli.cap s.plant = budget := budgetFor_eq _ _ _
    have same := budgetChange_same { s.cfg with budget := v } s.bli.cap s.plant
    rw [setBudgetInForce, inForce] at same
    refine ⟨_, exec_settingsWriteComplete normal session (.inl rfl), ?_⟩
    rw [State.completeWrite_eq session]
    exact ⟨rfl, same.budget, same.trans (raise_chain s.cfg _ _).same, fun still =>
      congrArg (fun p : Plant => p.raise .settingsDone) (budgetChange_idle (inForce.trans still)), rfl⟩

/-! ## The clock (R169 to R174) -/

theorem wantedSchedule_congr {windows : PerWindow Window} {x y : Dck} (h : { x with held := y.held } = y) (z : Zone) :
    wantedSchedule windows x z = wantedSchedule windows y z := by
  rw [← h]
  rfl

theorem State.alignSchedule_held (s : State) (z y : Zone) : (s.alignSchedule z).dck.held.get y =
    if y = z then wantedSchedule s.cfg.windows s.dck z else s.dck.held.get y := by
  unfold State.alignSchedule
  by_cases same : s.dck.held.get z = wantedSchedule s.cfg.windows s.dck z
  · rw [if_pos same]
    split
    · rename_i at_z
      rw [at_z, same]
    · rfl
  · simp only [same, if_false]
    cases wanted : wantedSchedule s.cfg.windows s.dck z <;> exact PerZone.get_set _ _ _ _

theorem State.Handed.clock {src : Source} {s t : State} (h : s.Handed src t) :
    t.dck = { s.dck with held := t.dck.held } := by
  conv_lhs => rw [h.only]

theorem State.alignSchedules_held (l : List Zone) (s : State) (y : Zone) :
    (l.foldl State.alignSchedule s).dck.held.get y =
      if y ∈ l then wantedSchedule s.cfg.windows s.dck y else s.dck.held.get y := by
  induction l generalizing s with
  | nil => simp
  | cons z zs ih =>
    have handed := s.alignSchedule_handed z
    have wanted (y : Zone) : wantedSchedule (s.alignSchedule z).cfg.windows (s.alignSchedule z).dck y =
        wantedSchedule s.cfg.windows s.dck y := by
      rw [State.cfg, handed.sst]
      exact (wantedSchedule_congr handed.clock.symm y).symm
    rw [List.foldl_cons, ih, wanted, s.alignSchedule_held]
    by_cases at_z : y = z
    · simp [at_z]
    · simp [at_z]

/-- After an evaluation the SCHEDULE claims held are those that the windows give. -/
theorem State.evaluateWindows_held (s : State) (z : Zone) :
    s.evaluateWindows.dck.held.get z = wantedSchedule s.cfg.windows s.dck z := by
  rw [State.evaluateWindows, State.alignSchedules_held, if_pos (Zone.mem_all z)]

theorem State.evaluateWindows_only (s : State) : s.evaluateWindows = { s with
    plant := s.evaluateWindows.plant, dck := { s.dck with held := s.evaluateWindows.dck.held } } := by
  have handed := s.evaluateWindows_handed
  generalize s.evaluateWindows = t at handed
  have fev := handed.fev (by decide)
  have pif := handed.pif (by decide)
  have bli := handed.bli (by decide)
  rw [handed.only, fev, pif, bli]

theorem State.minuteBoundary_normal {s : State} (normal : s.mode = .normal) (set : s.dck.isSet = true)
    (second : s.dck.second = 59) : s.minuteBoundary = ({ s with dck := s.dck.nextMinute }).evaluateWindows := by
  rw [State.minuteBoundary, if_pos ⟨set, second⟩]
  exact if_pos normal

/-- Settles O34. -/
theorem clockCountsSeconds : Obligations.ClockCountsSeconds := by
  intro s h
  refine ⟨fun unset => ⟨?_, ?_⟩, fun set second => ?_, fun set second c mem => ?_⟩
  · rw [exec_clockSecond h.powered, State.clockSecond_unset unset, h.settle]
  · rw [exec_minuteBoundary h.powered, State.minuteBoundary_idle (.inl unset), h.settle]
  · rw [exec_clockSecond h.powered, State.clockSecond_counts set second, h.settle]
  · have boundary := State.minuteBoundary_normal h.1 set second
    rw [Dck.nextMinute_eq] at boundary
    have ended : exec c s = .next s.minuteBoundary.settle := by
      rcases List.mem_pair.mp mem with rfl | rfl
      · rw [exec_clockSecond h.powered, State.clockSecond_boundary set second]
      · exact exec_minuteBoundary h.powered
    generalize advanced : ({ s with dck := { s.dck with
      second := 0, minute := if s.dck.minute = 1439 then 0 else s.dck.minute + 1
      day := if s.dck.minute = 1439 then (if s.dck.day = 7 then 1 else s.dck.day + 1) else s.dck.day } } : State) = u
      at boundary
    have handed := u.evaluateWindows_handed
    have held := u.evaluateWindows_held
    have only := u.evaluateWindows_only
    rw [boundary] at ended
    generalize u.evaluateWindows = t at ended handed held only
    have clock := handed.clock
    subst advanced
    have settled : t.settle = t.refreshPins := h.settle (by rw [only]) (by rw [only])
    refine ⟨_, ended.trans (congrArg _ settled), handed.claims, fun z => ?_, ?_⟩
    · exact (held z).trans (wantedSchedule_congr clock.symm z)
    · rw [only]
      rfl

/-- From `s` to `t`, a taken frame has put this clock record in place and the windows were evaluated under it. -/
def State.ClockMoved (s t : State) (clock : Dck) : Prop :=
  s.plant.OnlySource .schedule t.plant ∧ (∀ z, t.dck.held.get z = wantedSchedule s.cfg.windows clock z) ∧
    t = { s with
      plant := t.plant, wire := t.wire, pins := t.pins, dck := { clock with held := t.dck.held }
      bli := { s.bli with link := t.bli.link, timer := t.bli.timer } }

/-- SET-CLOCK or ADJUST-CLOCK has put a new time in the clock record: the windows are evaluated, and the reply sent. -/
theorem exec_clock (r : Request) {s : State} (h : s.Addressed) (clock : Dck)
    (e : requestHandler r s.hearB = (({ s.hearB with dck := clock }).evaluateWindows, .done))
    (restart : r ≠ .restart := by rintro ⟨⟩) :
    ∃ t, exec (r.command 0) s = .next t ∧ s.Replied t r.kind .done ∧ s.ClockMoved t clock := by
  have handed := ({ s.hearB with dck := clock }).evaluateWindows_handed
  have held := ({ s.hearB with dck := clock }).evaluateWindows_held
  have only := ({ s.hearB with dck := clock }).evaluateWindows_only
  generalize ({ s.hearB with dck := clock }).evaluateWindows = t at e handed held only
  refine ⟨_, exec_answered r h e (by rw [only]; rfl) (by rw [only]; rfl) restart, ?_, handed.claims, held, ?_⟩
  · exact State.answered_replied _ _ (by rw [only]; rfl) (by rw [only]; rfl) (by rw [only]; rfl)
  · rw [only]
    rfl

theorem wantedSchedule_unset {windows : PerWindow Window} {clock : Dck} (unset : clock.isSet = false) (z : Zone) :
    wantedSchedule windows clock z = none := by
  simp [wantedSchedule, openWindows, unset]

theorem le_wantedSchedule {windows : PerWindow Window} {clock : Dck} {z : Zone} {d : Nat}
    (h : wantedSchedule windows clock z = some d) :
    (∃ n ∈ coveringWindows windows clock z, (windows.get n).demand = d) ∧
      ∀ n ∈ coveringWindows windows clock z, (windows.get n).demand ≤ d := by
  rw [wantedSchedule_eq] at h
  split at h
  · cases h
  · rename_i covered
    obtain rfl := Option.some.inj h
    have demands : (coveringWindows windows clock z).map (fun n => (windows.get n).demand) ≠ [] := by simpa using covered
    exact ⟨List.mem_map.mp (largest_mem demands), fun n mem => le_largest (List.mem_map_of_mem mem)⟩

/-- ADJUST-CLOCK on a set clock (R171). -/
theorem exec_adjustClock {s : State} (h : s.Addressed) (set : s.dck.isSet = true) :
    ∃ t, exec .adjustClock s = .next t ∧ s.Replied t 22#8 .done ∧
      s.ClockMoved t (if s.dck.second < 30 then { s.dck with second := 0 } else s.dck.nextMinute) :=
  exec_clock .adjustClock h (if s.dck.second < 30 then { s.dck with second := 0 } else s.dck.nextMinute) (if_pos set)

/-- Settles O33. -/
theorem clockRequestsSetTheWindows : Obligations.ClockRequestsSetTheWindows := by
  refine ⟨fun s h => ⟨fun day minute second => ⟨fun range => ?_, fun out => ?_⟩, fun unset => ?_, fun set early => ?_,
    fun set late => ?_⟩, fun windows clock z => ⟨fun unset => wantedSchedule_unset unset z, fun set => ⟨?_, fun d wanted => ?_⟩⟩,
    fun s v normal session => ?_⟩
  · exact exec_clock (.setClock day minute second) h _ (if_pos range)
  · exact exec_replied (.setClock day minute second) h (if_neg out)
  · exact exec_replied .adjustClock h (if_neg (Bool.not_eq_true _ ▸ unset))
  · have adjusted := exec_adjustClock h set
    rw [if_pos early] at adjusted
    exact adjusted
  · have adjusted := exec_adjustClock h set
    rw [if_neg (Nat.not_lt.mpr late), Dck.nextMinute_eq] at adjusted
    exact adjusted
  · rw [← not_iff_not, ← Ne.eq_def, Option.ne_none_iff_isSome, wantedSchedule_isSome set]
    push Not
    rfl
  · obtain ⟨⟨n, covers, demand⟩, bound⟩ := le_wantedSchedule wanted
    exact ⟨⟨n, (mem_coveringWindows set z n).mp covers, demand⟩, fun n covers =>
      bound n ((mem_coveringWindows set z n).mpr covers)⟩
  · have ended := exec_settingsWriteComplete normal session (.inl rfl)
    rw [State.completeWrite_eq session] at ended
    set u : State := State.putInForce { s with sst := { s.sst with
      stored := s.sst.stored.put (.windows v), valid := s.sst.valid.set .windows true
      session := .committing (.windows v) true } } (.windows v) with inForce
    have handed := u.evaluateWindows_handed
    have held := u.evaluateWindows_held
    have only := u.evaluateWindows_only
    generalize evaluated : u.evaluateWindows = t at handed held only
    have applied : exec .settingsWriteComplete s = .next (({ t with sst := { t.sst with
        defaulted := t.sst.defaulted.set .windows false, session := .none } } : State).raise .settingsDone).refreshPins := by
      rw [ended, ← evaluated]
      rfl
    refine ⟨_, applied, by rw [only]; rfl, ?_, held, ?_⟩
    · exact handed.claims.trans ((raise_chain s.cfg t.plant .settingsDone).same.onlySource _)
    · rw [only]
      rfl

/-! ## Fans out of service (R156) -/

/-- The part of a fan's record that stays as it is while the fan is TRIPPED or LOCKED. -/
def FanRec.mark (r : FanRec) : FanState × TripCause × Nat × Nat × Bool := (r.state, r.cause, r.output, r.attempts, r.run)

theorem FanRec.mark_eq {a b : FanRec} : a.mark = b.mark ↔
    a.state = b.state ∧ a.cause = b.cause ∧ a.output = b.output ∧ a.attempts = b.attempts ∧ a.run = b.run := by
  simp [FanRec.mark]

theorem Plant.QueueOk.staged_queued {p : Plant} (h : p.QueueOk) {x : Staged} (staged : p.fsq.staged = some x) :
    (p.fan x.fan).state = .queued := by
  obtain ⟨queued, _, _, _, _, head⟩ := h
  have first := head x staged
  rw [Option.map_eq_some_iff] at first
  obtain ⟨e, mem, fan⟩ := first
  exact fan ▸ (queued e (List.mem_of_mem_head? mem)).1

/-- No move of the fan side touches a TRIPPED or LOCKED fan. -/
theorem FanMove.mark {cfg : Settings} {p q : Plant} (m : FanMove cfg p q) (queue : p.QueueOk) {f : Fan}
    (lost : (p.fan f).state.inReach = false) : (q.fan f).mark = (p.fan f).mark := by
  have apart {g : Fan} {r : FanRec} (reach : (p.fan g).state.inReach = true) : (p.setFan g r).fan f = p.fan f :=
    Plant.setFan_fan_other _ (by rintro rfl; rw [lost] at reach; cases reach) _
  cases m with
  | note _ _ _ _ state run out =>
    obtain ⟨cause, output, attempts⟩ := out f lost
    exact FanRec.mark_eq.mpr ⟨state f, cause, output, attempts, run f⟩
  | join g r _ _ reach =>
    rw [Plant.fan, Plant.join_fans]
    exact congrArg _ (apart reach)
  | leave g r _ was =>
    have left : (p.leave g).setFan g r = { p.leave g with fsq := { (p.leave g).fsq with
        fans := (p.setFan g r).fsq.fans } } := by simp [Plant.setFan]
    rw [left]
    exact congrArg _ (apart (by rw [was]; rfl))
  | stop g r _ was => exact congrArg _ (apart (FanState.inReach_of_inService was))
  | rest g r _ was => exact congrArg _ (apart (by rw [was]; rfl))
  | prove g r _ was => exact congrArg _ (apart (by rcases was with was | was <;> rw [was] <;> rfl))
  | stage => rfl
  | launch x r _ staged =>
    have other : f ≠ x.fan := by
      rintro rfl
      rw [queue.staged_queued staged] at lost
      cases lost
    rw [Plant.setFan_fan_other _ other, Plant.fan]
    exact congrArg (fun t : PerFan FanRec => (t.get f).mark) (p.leave_fans x.fan)
  | reorder => exact congrArg (fun t : PerFan FanRec => (t.get f).mark) (retest_fans cfg (reclass p))

theorem FanChain.mark {cfg : Settings} {p q : Plant} (h : FanChain cfg p q) (queue : p.QueueOk) {f : Fan}
    (lost : (p.fan f).state.inReach = false) : (q.fan f).mark = (p.fan f).mark := by
  have kept : q.QueueOk ∧ (q.fan f).mark = (p.fan f).mark := by
    refine h.keeps (I := fun q => q.QueueOk ∧ (q.fan f).mark = (p.fan f).mark) (fun m i => ?_) ⟨queue, rfl⟩
    refine ⟨m.queueOk i.1, (m.mark i.1 ?_).trans i.2⟩
    rw [(FanRec.mark_eq.mp i.2).1]
    exact lost
  exact kept.2

theorem FanChain.queueOk {cfg : Settings} {p q : Plant} (h : FanChain cfg p q) (queue : p.QueueOk) : q.QueueOk :=
  h.keeps FanMove.queueOk queue

theorem Plant.QueueOk.not_mem {p : Plant} (h : p.QueueOk) {f : Fan} (state : (p.fan f).state ≠ .queued) :
    ∀ e ∈ p.fsq.queue, e.fan ≠ f := by
  rintro e mem rfl
  exact state (h.1 e mem).1

/-- What LOCK-FAN has done to the plant before the pass that follows: the fan is out of the queue, and locked. -/
def Plant.lockFan (p : Plant) (f : Fan) : Plant :=
  let q := if (p.fan f).state = .queued then p.leave f else p
  q.setFan f (q.fan f).lock

theorem lockPlantFan_chain (cfg : Settings) (f : Fan) (p : Plant) : FanChain cfg (p.lockFan f) (lockPlantFan cfg f p) :=
  (refreshStatus_chain cfg _).trans (takeReport_chain cfg _ f)

theorem Plant.lockFan_spec (p : Plant) (f : Fan) (queue : p.QueueOk) :
    p.SameFireSide (p.lockFan f) ∧ (p.lockFan f).QueueOk ∧ (p.lockFan f).fan f = (p.fan f).lock := by
  unfold Plant.lockFan
  by_cases queued : (p.fan f).state = .queued
  · have fan : (p.leave f).fan f = p.fan f := by rw [Plant.fan, Plant.leave_fans]; rfl
    simp only [queued, if_true]
    exact ⟨(Plant.SameFireSide.of_leave p f).trans (.of_setFan rfl),
      queue.leave f _ (by decide : FanState.locked ≠ .queued) _, by rw [Plant.setFan_fan_self, fan]⟩
  · simp only [queued, if_false]
    exact ⟨.of_setFan rfl, queue.setFan_unqueued f _ queued (by decide : FanState.locked ≠ .queued), p.setFan_fan_self f _⟩

theorem requestHandler_lockFan {n : Byte} {f : Fan} (h : n.toNat = f.number) (s : State) :
    requestHandler (.lockFan n) s =
      if (s.plant.fan f).state.inService ∧ (s.plant.fan f).fire = true then (s, .refused .state)
      else if (s.plant.fan f).state = .locked then (s, .done) else (s.onPlant (lockPlantFan s.cfg f), .done) := by
  simp only [requestHandler, askLock, withFan_number h]

/-- Settles O35: no move that follows the locking touches the locked fan. -/
theorem lockTakesAFanOutOfService : Obligations.LockTakesAFanOutOfService := by
  intro s f n h queue number
  have handled := requestHandler_lockFan number s.hearB
  refine ⟨fun service fire => ?_, fun locked => ?_, fun other free => ?_⟩
  · exact exec_replied (.lockFan n) h (handled.trans (if_pos ⟨service, fire⟩))
  · refine exec_replied (.lockFan n) h (handled.trans ?_)
    refine (if_neg fun x => ?_).trans (if_pos locked)
    rw [show (s.hearB.plant.fan f).state = .locked from locked] at x
    exact absurd x.1 (by decide)
  · have carried : requestHandler (.lockFan n) s.hearB = ({ s.hearB with plant := lockPlantFan s.cfg f s.plant }, .done) :=
      handled.trans ((if_neg free).trans (if_neg other))
    obtain ⟨same, ok, locked⟩ := s.plant.lockFan_spec f queue
    have chain := lockPlantFan_chain s.cfg f s.plant
    have mark := chain.mark ok (f := f) (by rw [locked]; rfl)
    rw [locked] at mark
    obtain ⟨state, cause, output, attempts, run⟩ := FanRec.mark_eq.mp mark
    obtain ⟨t, ran, replied, plant, only⟩ := exec_onPlant (.lockFan n) h carried
    refine ⟨t, ran, replied, ?_⟩
    rw [plant]
    refine ⟨same.trans chain.same, state, cause, attempts, output, run, ?_, plant ▸ only⟩
    exact (chain.queueOk ok).not_mem (state.trans_ne (by decide : FanState.locked ≠ .queued))

end Sys2Proof.Machine

/-! Dampers, the panel, the fire contact and the loss of the links. -/

namespace Sys2Proof.Machine

/-! ## Commands of a part in normal operation -/

theorem State.Plain.inService {s : State} {f : State → State} (h : s.Plain) (mode : (f s).mode = s.mode := by rfl)
    (sst : (f s).sst = s.sst := by rfl) : s.inService f = (f s).refreshPins := by
  rw [State.inService, if_pos h.1, h.settle mode sst]

/-- A command that leaves the mode and the settings store alone ends with its own effect. -/
theorem exec_handled {c : Instr} {s t : State} {f : State → State} (h : s.Plain) (e : exec c s = .next (s.inService f))
    (handled : f s = t) (mode : t.mode = s.mode := by rfl) (sst : t.sst = s.sst := by rfl) :
    exec c s = .next t.refreshPins := by
  rw [e, h.inService (handled ▸ mode) (handled ▸ sst), handled]

/-- A command that touches nothing but the plant. -/
theorem exec_plant {c : Instr} {s : State} {p : Plant} {f : State → Plant → Plant} (h : s.Plain)
    (e : exec c s = .next (s.inService fun s => s.onPlant (f s))) (handled : f s s.plant = p) :
    ∃ t, exec c s = .next t ∧ t.plant = p ∧ t = { s with plant := t.plant, pins := t.pins } :=
  ⟨_, exec_handled (t := { s with plant := p }) h e (congrArg (fun p : Plant => { s with plant := p }) handled), rfl, rfl⟩

/-- A fold in which each member acts on its own entry of a view alone. -/
theorem foldl_each {σ ι α : Type} [DecidableEq ι] {f : σ → ι → σ} {view goal : σ → ι → α}
    (own : ∀ s i, view (f s i) i = goal s i) (others : ∀ s i j, j ≠ i → view (f s i) j = view s j)
    (goals : ∀ s i j, j ≠ i → goal (f s i) j = goal s j) {l : List ι} (nodup : l.Nodup) (s : σ) (j : ι) :
    view (l.foldl f s) j = if j ∈ l then goal s j else view s j := by
  induction l generalizing s with
  | nil => rfl
  | cons i is ih =>
    obtain ⟨new, rest⟩ := List.nodup_cons.mp nodup
    rw [List.foldl_cons, ih rest]
    by_cases at_i : j = i
    · subst at_i
      rw [if_neg new, own, if_pos List.mem_cons_self]
    · rw [goals s i j at_i, others s i j at_i]
      simp [at_i]

/-! ## Dampers (chapter 6) -/

/-- Settles O52, by the test that ends a departure. -/
theorem dampersObeyNewCommands : Obligations.DampersObeyNewCommands := by
  intro travel toOpen d
  refine ⟨(d.obey_switches travel toOpen).1, (d.obey_switches travel toOpen).2, d.obey_commandOpen travel toOpen,
    fun same => if_pos same, fun new => ?_⟩
  have obeyed (free : ¬(d.state = .fault ∧ d.reading = .disagree)) :
      d.obey travel toOpen = (({ d with commandOpen := toOpen } : Damper).depart travel).testEnd :=
    (if_neg new).trans (if_neg free)
  refine ⟨fun fault both => (if_neg new).trans (if_pos ⟨fault, both⟩), fun apart away => ?_, fun there => ?_⟩
  · exact (obeyed fun x => apart x.2).trans ((if_neg away).trans (if_neg apart))
  · have apart : d.reading ≠ .disagree := by
      rw [there]
      cases toOpen <;> decide
    exact (obeyed fun x => apart x.2).trans (if_pos there)

section
variable {d : Damper} {travel : Nat}

theorem Damper.read_travelling (h : d.state = .opening ∨ d.state = .closing) : d.read travel = d.testEnd := by
  rcases h with h | h <;> simp only [Damper.read, h]

theorem Damper.read_fault (h : d.state = .fault) :
    d.read travel = if d.reading = d.commandedEnd then d.home else d := by
  simp only [Damper.read, h]

theorem Damper.read_opened (h : d.state = .opened) : d.read travel =
    if d.reading = .atOpen then d else if d.reading = .disagree then d.fail .disagree else d.depart travel := by
  simp only [Damper.read, h]

theorem Damper.read_closed (h : d.state = .closed) : d.read travel =
    if d.reading = .atClosed then d else if d.reading = .disagree then d.fail .disagree else d.depart travel := by
  simp only [Damper.read, h]

@[simp] theorem Damper.setSwitch_state (w : EndSwitch) (b : Bool) : (d.setSwitch w b).state = d.state := by
  cases w <;> rfl

end

theorem damperEvent_same (cfg : Settings) (z : Zone) (f : Damper → Damper) (p : Plant) :
    (changeDamper z f p).SameFireSide (damperEvent cfg z f p) := by
  have refreshed := (refreshStatus_chain cfg (changeDamper z f p)).same
  unfold damperEvent
  dsimp only
  split
  · exact refreshed
  · exact refreshed.trans (runPass_chain cfg _).same

/-- A damper's change, with everything it sets off: nothing of another damper, of the claims or of the supply. -/
structure Plant.DamperMoved (z : Zone) (new : Damper) (p q : Plant) : Prop where
  own : q.dampers.get z = new
  others : ∀ y, y ≠ z → q.dampers.get y = p.dampers.get y
  claims : ∀ y, (q.zones.get y).claims = (p.zones.get y).claims ∧ (q.zones.get y).result = (p.zones.get y).result
  fault : new.state = .fault → (p.dampers.get z).state ≠ .fault → q.events.damperFault = true
  fireOrder : q.fireOrder = p.fireOrder
  spm : q.spm = p.spm
  budget : q.gal.budget = p.gal.budget

theorem damperEvent_moved (cfg : Settings) (z : Zone) (f : Damper → Damper) (p : Plant) :
    p.DamperMoved z (f (p.dampers.get z)) (damperEvent cfg z f p) := by
  have same := damperEvent_same cfg z f p
  refine ⟨?_, fun y other => ?_, fun y => ⟨?_, ?_⟩, fun fault sound => ?_, ?_, ?_, ?_⟩
  · rw [same.dampers, changeDamper_damper, if_pos rfl]
  · rw [same.dampers, changeDamper_damper, if_neg other]
  · rw [same.claims, changeDamper_zones]
  · rw [same.result, changeDamper_zones]
  · refine same.events .damperFault ?_
    simp [changeDamper, fault, sound]
  · rw [same.fireOrder, changeDamper_fireOrder]
  · rw [same.spm, changeDamper_spm]
  · rw [same.budget, changeDamper_gal]

/-- Settles O51: the damper's own record by its state, the rest by what a damper event leaves alone. -/
theorem switchesAndTravelMoveTheDamper : Obligations.SwitchesAndTravelMoveTheDamper := by
  refine ⟨fun s z switch made h new => ?_, fun s z h travelling expired => ?_, fun d => ⟨?_, rfl⟩, fun d b => ⟨rfl, rfl, rfl, rfl⟩⟩
  · have changed : changeEndSwitch s.cfg z switch made s.plant =
        damperEvent s.cfg z (fun d => (d.setSwitch switch made).read s.cfg.timers.travel) s.plant := if_neg new
    obtain ⟨t, ran, plant, only⟩ := exec_plant h (c := .endSwitchChange z switch made)
      (f := fun s => changeEndSwitch s.cfg z switch made) rfl changed
    have moved := damperEvent_moved s.cfg z (fun d => (d.setSwitch switch made).read s.cfg.timers.travel) s.plant
    rw [← plant] at moved
    refine ⟨t, ran, ⟨fun way => ?_, fun fault => ?_, fun opened => ?_, fun closed => ?_, fun fault sound =>
      moved.fault (moved.own ▸ fault) sound⟩, moved.others, moved.claims, moved.fireOrder, moved.spm, moved.budget, only⟩
    · exact moved.own.trans (Damper.read_travelling (by rwa [Damper.setSwitch_state]))
    · exact moved.own.trans (Damper.read_fault (by rwa [Damper.setSwitch_state]))
    · exact moved.own.trans (Damper.read_opened (by rwa [Damper.setSwitch_state]))
    · exact moved.own.trans (Damper.read_closed (by rwa [Damper.setSwitch_state]))
  · have moved := damperEvent_moved s.cfg z Damper.expire s.plant
    generalize ended : damperEvent s.cfg z Damper.expire s.plant = p at moved
    obtain ⟨t, ran, plant, only⟩ := exec_plant h (c := .travelExpiry z)
      (f := fun s => damperEvent s.cfg z Damper.expire) rfl ended
    rw [← plant] at moved
    have failed : (s.plant.dampers.get z).expire = (s.plant.dampers.get z).fail .travel := if_pos ⟨travelling, expired⟩
    rw [failed] at moved
    have sound : (s.plant.dampers.get z).state ≠ .fault := by
      intro fault
      rw [Damper.travelling, fault] at travelling
      cases travelling
    exact ⟨t, ran, moved.own, moved.fault rfl sound, moved.others, fun y => (moved.claims y).1, moved.spm, only⟩
  · unfold Damper.reading
    cases d.openSwitch <;> cases d.closedSwitch <;> rfl

/-! ## The panel (chapter 5) -/

theorem State.takePosition_idle {s : State} {z : Zone} {x : SwitchPosition}
    (h : s.pif.panelKey = false ∨ s.pif.position.get z = x ∨ (x = .auto ∧ s.pif.held.get z = none)) :
    s.takePosition z x = { s with
      pif := { s.pif with position := s.pif.position.set z x, switchFault := s.pif.switchFault.set z false } } := by
  unfold State.takePosition
  dsimp only
  split
  · rename_i acts
    rw [Bool.and_eq_true, bne_iff_ne] at acts
    obtain ⟨new, on⟩ := acts
    obtain ⟨rfl, held⟩ := (h.resolve_left (by simp [on])).resolve_left new
    exact if_neg (by simp [held])
  · rfl

theorem State.takePosition_acts {s : State} {z : Zone} {x : SwitchPosition} (on : s.pif.panelKey = true)
    (new : s.pif.position.get z ≠ x) {t : State} (h : t = { s with
      pif := { s.pif with position := s.pif.position.set z x, switchFault := s.pif.switchFault.set z false } }) :
    s.takePosition z x = if x = .auto then t.removePanel z else t.placePanel z := by
  have acts : (s.pif.position.get z != x && s.pif.panelKey) = true := by simp [new, on]
  subst h
  unfold State.takePosition
  simp only [acts, if_true]
  cases x <;> rfl

theorem State.placePanel_some {s : State} {z : Zone} {k : ClaimKind} (h : claimAsked (s.pif.position.get z) = some k) :
    s.placePanel z = (s.holdPanel z (some k)).place z (panelClaim k) := by rw [State.placePanel, h]

theorem State.placePanel_none {s : State} {z : Zone} (h : claimAsked (s.pif.position.get z) = none) :
    s.placePanel z = s := by rw [State.placePanel, h]

/-- What a zone holds of the panel: its claim list and the claim that the panel records as held. -/
def State.panelView (s : State) (z : Zone) : List Claim × Option ClaimKind :=
  ((s.plant.zones.get z).claims, s.pif.held.get z)

/-- A request of the panel changes its own zone's view alone. -/
theorem Plant.Requested.panelView {s : State} {z : Zone} {l : List Claim} {q : Plant} {k : Option ClaimKind}
    (h : s.plant.Requested s.cfg z l q) (y : Zone) :
    ((q.zones.get y).claims, (s.pif.held.set z k).get y) = if y = z then (l, k) else s.panelView y := by
  split
  · rename_i at_z
    rw [at_z, h.claims, PerZone.get_set_self]
  · rename_i other
    rw [h.others y other, PerZone.get_set_other _ other]
    rfl

/-- The view of a zone after its PANEL claim is placed as its switch asks. -/
def State.askedView (s : State) (z : Zone) : List Claim × Option ClaimKind :=
  match claimAsked (s.pif.position.get z) with
  | some k => (placeIn (panelClaim k) (s.plant.zones.get z).claims, some k)
  | none => s.panelView z

theorem State.placePanel_view (s : State) (z y : Zone) :
    (s.placePanel z).panelView y = if y = z then s.askedView z else s.panelView y := by
  unfold State.askedView
  cases asked : claimAsked (s.pif.position.get z) with
  | some k =>
    rw [State.placePanel_some asked]
    exact (place_spec s.cfg z (panelClaim k) s.plant).panelView y
  | none =>
    rw [State.placePanel_none asked]
    split
    · rename_i at_z
      rw [at_z]
    · rfl

theorem State.placePanel_position (s : State) (z : Zone) : (s.placePanel z).pif.position = s.pif.position := by
  unfold State.placePanel
  split <;> rfl

theorem State.placePanels_view (s : State) (z : Zone) :
    (Zone.all.foldl State.placePanel s).panelView z = s.askedView z := by
  refine (foldl_each (view := State.panelView) (goal := State.askedView) (fun s z => ?_) (fun s z y other => ?_)
    (fun s z y other => ?_) Zone.all_nodup s z).trans (if_pos (Zone.mem_all z))
  · rw [s.placePanel_view, if_pos rfl]
  · rw [s.placePanel_view, if_neg other]
  · have same := s.placePanel_view z y
    rw [if_neg other] at same
    have claims : ((s.placePanel z).plant.zones.get y).claims = (s.plant.zones.get y).claims := congrArg Prod.fst same
    rw [State.askedView, State.askedView, s.placePanel_position, claims, same]

/-- The view of a zone after its PANEL claim, if one is held, is removed. -/
def State.releasedView (s : State) (z : Zone) : List Claim × Option ClaimKind :=
  (if (s.pif.held.get z).isSome then withoutSource .panel (s.plant.zones.get z).claims else (s.plant.zones.get z).claims,
    none)

theorem State.removePanel_some {s : State} {z : Zone} (h : (s.pif.held.get z).isSome = true) :
    s.removePanel z = (s.holdPanel z none).remove z .panel := if_pos h

theorem State.removePanel_none {s : State} {z : Zone} (h : s.pif.held.get z = none) : s.removePanel z = s :=
  if_neg (by simp [h])

theorem State.removePanel_view (s : State) (z y : Zone) :
    (s.removePanel z).panelView y = if y = z then s.releasedView z else s.panelView y := by
  unfold State.releasedView
  by_cases held : (s.pif.held.get z).isSome = true
  · rw [State.removePanel_some held, if_pos held]
    exact (remove_spec s.cfg z .panel s.plant).panelView y
  · rw [if_neg held]
    have none := Option.not_isSome_iff_eq_none.mp held
    rw [State.removePanel_none none]
    split
    · rename_i at_z
      rw [at_z, State.panelView, none]
    · rfl

theorem State.removePanels_view (s : State) (z : Zone) :
    (Zone.all.foldl State.removePanel s).panelView z = s.releasedView z := by
  refine (foldl_each (view := State.panelView) (goal := State.releasedView) (fun s z => ?_) (fun s z y other => ?_)
    (fun s z y other => ?_) Zone.all_nodup s z).trans (if_pos (Zone.mem_all z))
  · rw [s.removePanel_view, if_pos rfl]
  · rw [s.removePanel_view, if_neg other]
  · have same := s.removePanel_view z y
    rw [if_neg other] at same
    have claims : ((s.removePanel z).plant.zones.get y).claims = (s.plant.zones.get y).claims := congrArg Prod.fst same
    have held : (s.removePanel z).pif.held.get y = s.pif.held.get y := congrArg Prod.snd same
    rw [State.releasedView, State.releasedView, claims, held]

theorem State.Handed.mode {src : Source} {s t : State} (h : s.Handed src t) : t.mode = s.mode := by rw [h.only]

/-- The panel's own fields after requests of the panel. -/
theorem State.Handed.panel {s t : State} (h : s.Handed .panel t) : t = { s with
    plant := t.plant, pif := { s.pif with held := t.pif.held } } := by
  have fev := h.fev (by decide)
  have dck := h.dck (by decide)
  have bli := h.bli (by decide)
  conv_lhs => rw [h.only, fev, dck, bli]

/-- Settles O44. -/
theorem panelClaimsFollowSwitchesAndKey : Obligations.PanelClaimsFollowSwitchesAndKey := by
  refine ⟨fun s z x h => ⟨fun idle => ?_, fun k asked on new => ?_, fun auto on new held => ?_, ?_⟩,
    fun s on h => ⟨fun same => ?_, fun new => ?_⟩, rfl⟩
  · exact exec_handled h (c := .zoneSwitchChange z x) rfl (State.takePosition_idle idle)
  · have away : x ≠ .auto := by
      rintro rfl
      cases asked
    have taken := (State.takePosition_acts on new rfl).trans (if_neg away)
    rw [State.placePanel_some (k := k) (by exact (congrArg claimAsked (PerZone.get_set_self _ _ _)).trans asked)] at taken
    exact ⟨_, exec_handled h (c := .zoneSwitchChange z x) rfl taken, place_spec _ _ _ _, rfl⟩
  · have taken := (State.takePosition_acts on new rfl).trans (if_pos auto)
    rw [State.removePanel_some (by exact held)] at taken
    exact ⟨_, exec_handled h (c := .zoneSwitchChange z x) rfl taken, remove_spec _ _ _ _, rfl⟩
  · exact exec_handled h (c := .switchFault z) rfl rfl
  · exact exec_handled h (c := .panelInControlKeyChange on) rfl (if_pos same)
  · have turned : s.turnPanelKey on = if on then Zone.all.foldl State.placePanel { s with pif := { s.pif with panelKey := on } }
        else Zone.all.foldl State.removePanel { s with pif := { s.pif with panelKey := on } } := if_neg new
    cases on with
    | true =>
      have handed := State.Handed.foldl State.placePanel_handed Zone.all { s with pif := { s.pif with panelKey := true } }
      have view := ({ s with pif := { s.pif with panelKey := true } } : State).placePanels_view
      rw [if_pos rfl] at turned
      generalize Zone.all.foldl State.placePanel { s with pif := { s.pif with panelKey := true } } = t at turned handed view
      have only := handed.panel
      refine ⟨t.refreshPins, exec_handled h (c := .panelInControlKeyChange true) rfl turned handed.mode handed.sst,
        handed.claims, fun _ z => ?_, fun off => (by cases off), (by rw [only]; rfl)⟩
      have claims : (t.plant.zones.get z).claims = _ := congrArg Prod.fst (view z)
      have held : t.pif.held.get z = _ := congrArg Prod.snd (view z)
      unfold State.askedView at claims held
      cases asked : claimAsked (s.pif.position.get z) <;> simp only [asked] at claims held <;> exact ⟨claims, held⟩
    | false =>
      have handed := State.Handed.foldl State.removePanel_handed Zone.all { s with pif := { s.pif with panelKey := false } }
      have view := ({ s with pif := { s.pif with panelKey := false } } : State).removePanels_view
      rw [if_neg (by decide)] at turned
      generalize Zone.all.foldl State.removePanel { s with pif := { s.pif with panelKey := false } } = t at turned handed view
      have only := handed.panel
      exact ⟨t.refreshPins, exec_handled h (c := .panelInControlKeyChange false) rfl turned handed.mode handed.sst,
        handed.claims, fun on => (by cases on), fun _ z => ⟨congrArg Prod.snd (view z), congrArg Prod.fst (view z)⟩,
        (by rw [only]; rfl)⟩

/-- The session after the commissioning key is turned: OFF abandons an open session of ZONES or FANS (R96). -/
def Session.keyTurned (on : Bool) : Session → Session
  | .opened b latch => if on = false ∧ b.block.protected? = true then .none else .opened b latch
  | x => x

theorem State.turnCommissioningKey_eq (s : State) (on : Bool) : s.turnCommissioningKey on = { s with
    pif := { s.pif with commissioningKey := on }
    sst := { s.sst with session := s.sst.session.keyTurned on } } := by
  obtain ⟨mode, plant, scn, fev, fif, pif, dck, bli, ⟨stored, valid, inForce, defaulted, session⟩, pins, wire, pending⟩ := s
  cases session with
  | opened b latch =>
    by_cases off : on = false ∧ b.block.protected? = true
    · have acts : (!on && b.block.protected?) = true := by simp [off.1, off.2]
      simp only [State.turnCommissioningKey, acts, if_true, Session.keyTurned, if_pos off]
      rfl
    · have idle : (!on && b.block.protected?) = false := by simpa using off
      simp only [State.turnCommissioningKey, idle, Bool.false_eq_true, if_false, Session.keyTurned, if_neg off]
  | none => rfl
  | committing b written => rfl

theorem Session.keyTurned_committing {on : Bool} {x : Session} {v : BlockValue} (h : x.keyTurned on = .committing v true) :
    x = .committing v true := by
  cases x with
  | opened b latch =>
    simp only [Session.keyTurned] at h
    split at h <;> cases h
  | none => exact h
  | committing b written => exact h

/-- Settles O45. -/
theorem keyAndLampTestAreTaken : Obligations.KeyAndLampTestAreTaken := by
  refine fun s h => ⟨fun on => ?_, fun held => ⟨_, exec_handled h (c := .lampTestChange held) rfl rfl, rfl, ?_⟩⟩
  · show Host.Outcome.next (s.inService fun s => s.turnCommissioningKey on) = _
    rw [State.inService, if_pos h.1, s.turnCommissioningKey_eq]
    exact congrArg _ (State.settle_eq h.1 fun v x => h.2 v (Session.keyTurned_committing x))
  · obtain ⟨normal, _⟩ := State.refreshPins_says { s with pif := { s.pif with lampTest := held } } h.1
    obtain ⟨_, _, zones, groups, _⟩ := normal h.1
    exact ⟨zones, groups⟩

/-! ## Zone-state frames on the F-link (R71, R72) -/

theorem State.completeF_normal {s : State} (normal : s.mode = .normal) (bs : List Byte) :
    s.completeF bs = { s with fif := { s.fif with
      assembling := false, slot := ((parseFrame bs).bind ZoneStateFrame.ofFrame?).or s.fif.slot } } := by
  unfold State.completeF
  rw [if_pos normal]
  cases (parseFrame bs).bind ZoneStateFrame.ofFrame? <;> rfl

theorem ZoneStateFrame.ofFrame?_none {f : Frame} (h : f.kind ≠ 1#8 ∨ f.payload.length ≠ 2) :
    ZoneStateFrame.ofFrame? f = none := by
  unfold ZoneStateFrame.ofFrame?
  split
  · rename_i kind
    split
    · rename_i payload
      rw [payload] at h
      exact absurd rfl (h.resolve_left fun x => x kind)
    · rfl
  · rfl

/-- Settles O42. -/
theorem zoneStateFramesTakeTheSlot : Obligations.ZoneStateFramesTakeTheSlot := by
  intro bs s h
  have ended := exec_fFrameReceived h.powered bs
  rw [State.completeF_normal h.1, h.settle] at ended
  refine ⟨fun f flags map parsed kind payload => ?_, fun broken => ?_⟩
  · rw [ended, parsed, Option.bind_some, ZoneStateFrame.ofFrame?, if_pos kind, payload]
    rfl
  · have none : (parseFrame bs).bind ZoneStateFrame.ofFrame? = none := by
      rcases broken with broken | ⟨f, parsed, other⟩
      · rw [broken, Option.bind_none]
      · rw [parsed, Option.bind_some, ZoneStateFrame.ofFrame?_none other]
    rw [ended, none]
    rfl

end Sys2Proof.Machine

/-! The fire contact, and the loss of the links. -/

namespace Sys2Proof.Machine

/-! ## Contact claims (R74, R81) -/

/-- The claim list of a zone. -/
def State.claims (s : State) (z : Zone) : List Claim := (s.plant.zones.get z).claims

theorem State.place_claims (s : State) (z y : Zone) (c : Claim) :
    (s.place z c).claims y = if y = z then placeIn c (s.claims z) else s.claims y := by
  have spec := place_spec s.cfg z c s.plant
  split
  · rename_i at_z
    rw [at_z]
    exact spec.claims
  · rename_i other
    exact spec.others y other

theorem State.remove_claims (s : State) (z y : Zone) (src : Source) :
    (s.remove z src).claims y = if y = z then withoutSource src (s.claims z) else s.claims y := by
  have spec := remove_spec s.cfg z src s.plant
  split
  · rename_i at_z
    rw [at_z]
    exact spec.claims
  · rename_i other
    exact spec.others y other

theorem State.places_claims {c : Claim} {l : List Zone} (nodup : l.Nodup) (s : State) (y : Zone) :
    (l.foldl (fun s z => s.place z c) s).claims y = if y ∈ l then placeIn c (s.claims y) else s.claims y := by
  refine foldl_each (view := State.claims) (goal := fun s z => placeIn c (s.claims z)) (fun s z => ?_)
    (fun s z y other => ?_) (fun s z y other => ?_) nodup s y
  · rw [s.place_claims, if_pos rfl]
  · rw [s.place_claims, if_neg other]
  · simp only [s.place_claims, if_neg other]

theorem State.removes_claims {src : Source} {l : List Zone} (nodup : l.Nodup) (s : State) (y : Zone) :
    (l.foldl (fun s z => s.remove z src) s).claims y = if y ∈ l then withoutSource src (s.claims y) else s.claims y := by
  refine foldl_each (view := State.claims) (goal := fun s z => withoutSource src (s.claims z)) (fun s z => ?_)
    (fun s z y other => ?_) (fun s z y other => ?_) nodup s y
  · rw [s.remove_claims, if_pos rfl]
  · rw [s.remove_claims, if_neg other]
  · simp only [s.remove_claims, if_neg other]

theorem State.placeContact_claims (s : State) (z : Zone) : s.placeContact.claims z =
    if maskHas s.cfg.zones.contactExhaust z then placeIn fireContactClaim (s.claims z) else s.claims z := by
  refine (State.places_claims (Zone.all_nodup.filter _) s z).trans ?_
  simp [List.mem_filter]

/-- A zone that holds no contact claim keeps its list in a removal. -/
theorem State.removeContact_claims (s : State) (z : Zone) :
    s.removeContact.claims z = withoutSource .fireContact (s.claims z) := by
  refine (State.removes_claims (Zone.all_nodup.filter _) s z).trans ?_
  split
  · rfl
  · rename_i free
    rw [List.mem_filter, not_and] at free
    exact (withoutSource_eq_self (Option.not_isSome_iff_eq_none.mp (free (Zone.mem_all z)))).symm

theorem State.Handed.of_contact {s t : State} (h : s.Handed .fireContact t) : t = { s with plant := t.plant } := by
  have fev := h.fev (by decide)
  have pif := h.pif (by decide)
  have dck := h.dck (by decide)
  have bli := h.bli (by decide)
  conv_lhs => rw [h.only, fev, pif, dck, bli]

/-! ## The fallback (R75, R80 to R82) -/

theorem Plant.raise_onlySource (p : Plant) (k : EventKind) (src : Source) : p.OnlySource src (p.raise k) :=
  (raise_chain factory p k).same.onlySource src

/-- A handling that leaves the plant to the contact claims. -/
theorem exec_contact {c : Instr} {s u : State} {f : State → State} (h : s.Plain) (e : exec c s = .next (s.inService f))
    {t : State} (handled : f s = t) (handed : u.Handed .fireContact t) (mode : u.mode = s.mode := by rfl)
    (sst : u.sst = s.sst := by rfl) : exec c s = .next ({ u with plant := t.plant }).refreshPins := by
  rw [← handed.of_contact]
  exact exec_handled h e handled (handed.mode.trans mode) (handed.sst.trans sst)

theorem exec_loseFLink {s : State} (h : s.Plain) (link : s.fif.link = .up) (timer : s.fif.timer = some 0) :
    ∃ t, exec .fLinkSupervisionExpiry s = .next t ∧ t.plant.events.linkTrouble = true ∧
       s.plant.OnlySource .fireContact t.plant ∧
       (∀ z, (t.plant.zones.get z).claims =
         if s.fif.contact && maskHas s.cfg.zones.contactExhaust z then
           placeIn fireContactClaim (s.plant.zones.get z).claims
         else (s.plant.zones.get z).claims) ∧
       t = { s with plant := t.plant, pins := t.pins, fif := { s.fif with link := .lost, timer := none } } := by
  have expired : s.expireFLink = s.loseFLink := if_pos ⟨link, timer⟩
  set u : State := State.raise { s with fif := { s.fif with link := .lost, timer := none } } .linkTrouble with lost
  have raised := s.plant.raise_onlySource .linkTrouble .fireContact
  have trouble : u.plant.events.has .linkTrouble = true := by simp [lost, Events.has_add]
  have lose : s.loseFLink = if s.fif.contact = true then u.placeContact else u := rfl
  cases active : s.fif.contact with
  | true =>
    rw [active, if_pos rfl] at lose
    have handed := u.placeContact_handed
    have claims := u.placeContact_claims
    generalize u.placeContact = t at lose handed claims
    exact ⟨_, exec_contact h rfl (expired.trans lose) handed, handed.claims.events .linkTrouble trouble,
      raised.trans handed.claims, claims, rfl⟩
  | false =>
    rw [active, if_neg (by decide)] at lose
    exact ⟨_, exec_handled h rfl (expired.trans lose), trouble, raised, fun z => rfl, rfl⟩

theorem exec_changeContact {s : State} (h : s.Plain) {active : Bool} (new : s.fif.contact ≠ active) :
    ∃ t, exec (.generalFireContactChange active) s = .next t ∧
       t.plant.events.fireChange = true ∧ s.plant.OnlySource .fireContact t.plant ∧
       (∀ z, (t.plant.zones.get z).claims =
         if active = false then withoutSource .fireContact (s.plant.zones.get z).claims
         else if s.fif.link ≠ .up ∧ maskHas s.cfg.zones.contactExhaust z = true then
           placeIn fireContactClaim (s.plant.zones.get z).claims
         else (s.plant.zones.get z).claims) ∧
       t = { s with plant := t.plant, pins := t.pins, fif := { s.fif with contact := active } } := by
  set u : State := State.raise { s with fif := { s.fif with contact := active } } .fireChange with changed
  have raised := s.plant.raise_onlySource .fireChange .fireContact
  have noted : u.plant.events.has .fireChange = true := by simp [changed, Events.has_add]
  have taken : s.changeContact active = if active = true then if s.fif.link = .up then u else u.placeContact
      else u.removeContact := if_neg new
  cases active with
  | false =>
    rw [if_neg (by decide)] at taken
    have handed := u.removeContact_handed
    have claims := u.removeContact_claims
    generalize u.removeContact = t at taken handed claims
    exact ⟨_, exec_contact h rfl taken handed, handed.claims.events .fireChange noted, raised.trans handed.claims, claims,
      rfl⟩
  | true =>
    rw [if_pos rfl] at taken
    by_cases up : s.fif.link = .up
    · rw [if_pos up] at taken
      exact ⟨_, exec_handled h rfl taken, noted, raised, fun z => by rw [if_neg (by decide), if_neg fun x => x.1 up]; rfl,
        rfl⟩
    · rw [if_neg up] at taken
      have handed := u.placeContact_handed
      have claims := u.placeContact_claims
      generalize u.placeContact = t at taken handed claims
      refine ⟨_, exec_contact h rfl taken handed, handed.claims.events .fireChange noted, raised.trans handed.claims,
        fun z => (claims z).trans ?_, rfl⟩
      rw [if_neg (by decide : ¬(true = false))]
      exact if_congr (by rw [and_iff_right up]; rfl) rfl rfl

/-- What a ZONES block does once its values are in force (R24, R82, R131). -/
theorem State.applyZones_spec (s : State) :
    s.applyZones = { s with plant := s.applyZones.plant } ∧ s.plant.OnlySource .fireContact s.applyZones.plant ∧
      (∀ z, s.applyZones.claims z = if s.fallback = true ∧ maskHas s.cfg.zones.contactExhaust z = true then
        placeIn fireContactClaim (s.claims z) else s.claims z) ∧
      (s.fallback = false → s.applyZones.plant = runPass s.cfg (refreshStatus s.cfg s.plant)) := by
  have before : s.plant.SameFireSide (refreshStatus s.cfg s.plant) := (refreshStatus_chain s.cfg s.plant).same
  have applied : s.applyZones = State.onPlant
      (if s.fallback = true then State.placeContact { s with plant := refreshStatus s.cfg s.plant }
        else { s with plant := refreshStatus s.cfg s.plant }) (runPass s.cfg) := rfl
  generalize refreshStatus s.cfg s.plant = q at before applied
  cases fallback : s.fallback with
  | true =>
    rw [fallback, if_pos rfl, State.onPlant] at applied
    have handed := ({ s with plant := q } : State).placeContact_handed
    have claims := ({ s with plant := q } : State).placeContact_claims
    generalize ({ s with plant := q } : State).placeContact = t at applied handed claims
    have after := (runPass_chain s.cfg t.plant).same
    generalize runPass s.cfg t.plant = r at applied after
    rw [applied]
    refine ⟨by rw [handed.of_contact], ?_, fun z => ?_, fun other => by cases other⟩
    · exact ((before.onlySource _).trans handed.claims).trans (after.onlySource _)
    · have present : ({ s with plant := q } : State).claims z = s.claims z := before.claims z
      refine (after.claims z).trans ((claims z).trans ?_)
      rw [present]
      exact if_congr (and_iff_right rfl).symm rfl rfl
  | false =>
    rw [fallback, if_neg (by decide), State.onPlant] at applied
    dsimp only at applied
    have after := (runPass_chain s.cfg q).same
    generalize runPass s.cfg q = r at applied after ⊢
    rw [applied]
    refine ⟨rfl, (before.onlySource _).trans (after.onlySource _), fun z => ?_, fun _ => rfl⟩
    rw [if_neg fun x => by cases x.1]
    exact (after.claims z).trans (before.claims z)

/-- A written block comes into force, its owners having taken it. -/
theorem exec_blockWritten {s w : State} {v : BlockValue} (normal : s.mode = .normal)
    (session : s.sst.session = .committing v false) (ready : v.block.protected? = false ∨ s.commitCondition = true)
    (owners : (s.completeWrite.putInForce v).applyToOwners s.cfg v.block = w) :
    exec .settingsWriteComplete s = .next (State.raise { w with sst := { w.sst with
      defaulted := w.sst.defaulted.set v.block false, session := .none } } .settingsDone).refreshPins := by
  rw [exec_settingsWriteComplete normal session ready, ← owners, State.completeWrite_eq session]
  rfl

theorem State.fallback_eq_false {s : State} (h : s.fif.contact = false ∨ s.fif.link = .up) : s.fallback = false := by
  rcases h with h | h <;> simp [State.fallback, h]

/-- Settles O41. -/
theorem contactFallbackPlacesItsClaims : Obligations.ContactFallbackPlacesItsClaims := by
  refine ⟨fun s h link timer => exec_loseFLink h link timer, fun s active h => ⟨fun same => ?_, exec_changeContact h⟩,
    fun s x normal session condition => ?_⟩
  · exact exec_handled h (c := .generalFireContactChange active) rfl (if_pos same)
  · obtain ⟨only, claims, lists, quiet⟩ := (s.completeWrite.putInForce (.zones x)).applyZones_spec
    have ended := exec_blockWritten normal session (.inr condition) rfl
    rw [show (s.completeWrite.putInForce (.zones x)).applyToOwners s.cfg (BlockValue.zones x).block =
      (s.completeWrite.putInForce (.zones x)).applyZones from rfl] at ended
    generalize (s.completeWrite.putInForce (.zones x)).applyZones = w at ended only claims lists quiet
    rw [State.completeWrite_eq session] at only claims lists quiet
    refine ⟨_, ended, claims.trans (w.plant.raise_onlySource _ _), fun z => (lists z).trans (if_congr ?_ rfl rfl),
      fun other => congrArg (fun p : Plant => p.raise .settingsDone) (quiet (State.fallback_eq_false other)), ?_⟩
    · rw [← and_assoc]
      exact and_congr_left' (by simp [State.fallback, State.putInForce])
    · rw [only]
      rfl

/-! ## The loss of the B-link (R178) -/

/-- What a zone holds of the controller: its claim list and the BMS claim that is recorded as held. -/
def State.bmsView (s : State) (z : Zone) : List Claim × Option ClaimKind := (s.claims z, s.bli.held.get z)

/-- The view of a zone after its BMS claim, if one is held, is removed. -/
def State.unheldView (s : State) (z : Zone) : List Claim × Option ClaimKind :=
  (if (s.bli.held.get z).isSome then withoutSource .bms (s.claims z) else s.claims z, none)

theorem State.releaseBms_view (s : State) (z y : Zone) :
    (s.releaseBms z).bmsView y = if y = z then s.unheldView z else s.bmsView y := by
  by_cases held : (s.bli.held.get z).isSome = true
  · have taken : s.releaseBms z = (s.holdBms z none).remove z .bms := if_pos held
    have claims := (s.holdBms z none).remove_claims z y .bms
    rw [taken, State.bmsView, claims, State.unheldView, if_pos held]
    have record : ((s.holdBms z none).remove z .bms).bli.held.get y = if y = z then none else s.bli.held.get y :=
      PerZone.get_set _ _ _ _
    rw [record]
    split <;> rfl
  · have idle : s.releaseBms z = s := if_neg held
    rw [idle]
    split
    · rename_i at_z
      rw [at_z, State.unheldView, if_neg held, State.bmsView, Option.not_isSome_iff_eq_none.mp held]
    · rfl

theorem State.releasesBms_view (s : State) (z : Zone) :
    (Zone.all.foldl State.releaseBms s).bmsView z = s.unheldView z := by
  refine (foldl_each (view := State.bmsView) (goal := State.unheldView) (fun s z => ?_) (fun s z y other => ?_)
    (fun s z y other => ?_) Zone.all_nodup s z).trans (if_pos (Zone.mem_all z))
  · rw [s.releaseBms_view, if_pos rfl]
  · rw [s.releaseBms_view, if_neg other]
  · have same := s.releaseBms_view z y
    rw [if_neg other] at same
    have claims : (s.releaseBms z).claims y = s.claims y := congrArg Prod.fst same
    have held : (s.releaseBms z).bli.held.get y = s.bli.held.get y := congrArg Prod.snd same
    rw [State.unheldView, State.unheldView, claims, held]

theorem State.Handed.of_bms {s t : State} (h : s.Handed .bms t) : t = { s with
    plant := t.plant, bli := { s.bli with held := t.bli.held } } := by
  have fev := h.fev (by decide)
  have pif := h.pif (by decide)
  have dck := h.dck (by decide)
  conv_lhs => rw [h.only, fev, pif, dck]

/-- The session after an open one is abandoned; a commit is left alone (R191). -/
def Session.abandoned : Session → Session
  | .opened _ _ => .none
  | x => x

theorem State.abandonOpen_eq (s : State) :
    s.abandonOpen = { s with sst := { s.sst with session := s.sst.session.abandoned } } := by
  obtain ⟨mode, plant, scn, fev, fif, pif, dck, bli, ⟨stored, valid, inForce, defaulted, session⟩, pins, wire, pending⟩ := s
  cases session <;> rfl

theorem Session.abandoned_committing {x : Session} {v : BlockValue} (h : x.abandoned = .committing v true) :
    x = .committing v true := by
  cases x with
  | opened b latch => cases h
  | none => exact h
  | committing b written => exact h

/-- The loss of the B-link, record by record. -/
theorem State.loseBLink_spec (s : State) :
    s.loseBLink = { s with
      plant := s.loseBLink.plant
      bli := { s.bli with link := .lost, timer := none, held := .build fun _ => none, cap := none }
      sst := { s.sst with session := s.sst.session.abandoned } } ∧
    s.loseBLink.plant.events.linkTrouble = true ∧
    (∀ z, s.loseBLink.claims z = if (s.bli.held.get z).isSome then withoutSource .bms (s.claims z) else s.claims z) ∧
    s.loseBLink.plant.fireOrder = s.plant.fireOrder ∧ s.loseBLink.plant.spm = s.plant.spm := by
  set u : State := { s with bli := { s.bli with link := .lost, timer := none } } with lost
  have handed := State.Handed.foldl State.releaseBms_handed Zone.all u
  have view := u.releasesBms_view
  have lose : s.loseBLink = ((if (Zone.all.foldl State.releaseBms u).bli.cap.isSome then
    (Zone.all.foldl State.releaseBms u).setCap none else Zone.all.foldl State.releaseBms u).abandonOpen).raise
      .linkTrouble := rfl
  generalize Zone.all.foldl State.releaseBms u = t at lose handed view
  have only := handed.of_bms
  have held : t.bli.held = .build fun _ => none := PerZone.ext_get fun z => by
    rw [PerZone.get_build]
    exact congrArg Prod.snd (view z)
  have claims (z : Zone) : t.claims z = _ := congrArg Prod.fst (view z)
  rw [held] at only
  have capped : (if t.bli.cap.isSome then t.setCap none else t) = { t with
      plant := if t.bli.cap.isSome then budgetChange t.cfg none t.plant else t.plant, bli := { t.bli with cap := none } } := by
    cases cap : t.bli.cap with
    | some n => rfl
    | none => rw [if_neg (by decide), if_neg (by decide), ← cap]
  generalize budget : (if t.bli.cap.isSome then budgetChange t.cfg none t.plant else t.plant) = p at capped
  have same : t.plant.SameClaims p ∧ p.spm = t.plant.spm := by
    rw [← budget]
    split
    · exact ⟨budgetChange_sameClaims _ _ _, (budgetChange_same _ _ _).spm⟩
    · exact ⟨.refl _, rfl⟩
  rw [lose, capped, State.abandonOpen_eq]
  refine ⟨?_, ?_, fun z => (same.1.claims z).trans (claims z), same.1.fireOrder.trans handed.claims.fireOrder,
    same.2.trans handed.claims.spm⟩
  · rw [only]
    rfl
  · exact (Events.has_add p.events .linkTrouble .linkTrouble).trans (by simp)

/-- Settles O40. -/
theorem lostBLinkWithdrawsTheBms : Obligations.LostBLinkWithdrawsTheBms := by
  intro s h link timer
  have lose : s.expireBLink = s.loseBLink := if_pos ⟨link, timer⟩
  obtain ⟨only, trouble, claims, fireOrder, spm⟩ := s.loseBLink_spec
  have handles := s.loseBLink_handles
  generalize s.loseBLink = t at lose only trouble claims fireOrder spm handles
  have settled : t.settle = t.refreshPins := State.settle_eq (handles.mode.trans h.1) fun v x => by
    rw [only] at x
    exact h.2 v (Session.abandoned_committing x)
  have ended : exec .bLinkSupervisionExpiry s = .next t.refreshPins := by
    show Host.Outcome.next (s.inService State.expireBLink) = _
    rw [State.inService, if_pos h.1, lose, settled]
  refine ⟨_, ended, ?_, trouble, ?_, fun z => ?_, fun agree z => ?_, fireOrder, spm, ?_⟩
  · rw [only]
    rfl
  · rw [only]
    rfl
  · rw [show (t.refreshPins.plant.zones.get z).claims = _ from claims z]
    split
    · exact withoutSource_withoutSource _ _
    · rfl
  · have bms := (handles.sources agree z).2.2.1
    rw [only, PerZone.get_build] at bms
    exact bms
  · rw [only]
    rfl

end Sys2Proof.Machine

/-! The fire update of a zone-state frame, and the reply to it. -/

namespace Sys2Proof.Machine

/-! ## The fire order list (R14, R15) -/

/-- The entry of a zone under an alarm map. -/
def markedEntry (map : BitVec 8) (z : Zone) : FireEntry := { zone := z, alarmPresent := maskHas map z }

theorem markAlarms_eq (map : BitVec 8) (l : List FireEntry) :
    markAlarms map l = (l.map FireEntry.zone).map (markedEntry map) := by
  simp [markAlarms, markedEntry, Function.comp_def]

theorem appendAlarms_zones (map : BitVec 8) (l : List FireEntry) : (appendAlarms map l).map FireEntry.zone =
    l.map FireEntry.zone ++ Zone.all.filter fun z => maskHas map z && !(l.map FireEntry.zone).contains z := by
  have listed (z : Zone) : (l.any fun e => e.zone == z) = (l.map FireEntry.zone).contains z := by
    rw [List.contains_eq_any_beq, List.any_map]
    exact congrArg l.any (funext fun e => Bool.beq_comm)
  simp [appendAlarms, listed, Function.comp_def]

theorem updateFireOrder_eq (map : BitVec 8) (reset : Bool) (l : List FireEntry) :
    updateFireOrder map reset l =
      let was := l.map FireEntry.zone
      let grown := was ++ Zone.all.filter fun z => maskHas map z && !was.contains z
      (if reset then grown.filter (maskHas map) else grown).map fun z => { zone := z, alarmPresent := maskHas map z } := by
  dsimp only
  rw [← appendAlarms_zones]
  unfold updateFireOrder
  rw [markAlarms_eq]
  cases reset with
  | false => rfl
  | true => exact List.filter_map

/-! ## The claims of a fire update (R16, R21) -/

theorem alignFireLink_eq {was now : List Zone} (z : Zone) (l : List Claim) :
    alignFireLink (was.contains z) (now.contains z) l =
      if z ∈ now ∧ z ∉ was then placeIn fireLinkClaim l else if z ∈ was ∧ z ∉ now then withoutSource .fireLink l else l := by
  by_cases before : z ∈ was <;> by_cases after : z ∈ now <;> simp [before, after, alignFireLink]

theorem alignAdjacency_eq (origins : List Zone) (l : List Claim) :
    alignAdjacency origins l =
      if origins = [] then withoutSource .adjacency l
      else if (claimOf .adjacency l).map Claim.origins = some origins then l
      else placeIn (adjacencyClaim origins) l := by
  unfold alignAdjacency
  cases origins with
  | nil =>
    cases held : claimOf .adjacency l with
    | none => simp [withoutSource_eq_self held]
    | some c => rfl
  | cons o os => cases held : claimOf .adjacency l <;> simp

theorem activeZones_eq (limit : Nat) (l : List FireEntry) : activeZones limit l = (l.map FireEntry.zone).take limit :=
  List.map_take

theorem fireClaims_eq (cfg : Settings) (map : BitVec 8) (reset : Bool) (p : Plant) (z : Zone) :
    fireClaims cfg map reset p z =
      let old := (p.fireOrder.map FireEntry.zone).take cfg.zones.originLimit
      let new := ((updateFireOrder map reset p.fireOrder).map FireEntry.zone).take cfg.zones.originLimit
      let l := (p.zones.get z).claims
      let l1 := if z ∈ new ∧ z ∉ old then placeIn fireLinkClaim l
        else if z ∈ old ∧ z ∉ new then withoutSource .fireLink l else l
      let origins := new.filter fun o => maskHas (cfg.zones.adjacency.get o) z
      if old = new then l1
      else if origins = [] then withoutSource .adjacency l1
      else if (claimOf .adjacency l1).map Claim.origins = some origins then l1
      else placeIn (adjacencyClaim origins) l1 := by
  simp only [fireClaims, activeZones_eq, alignFireLink_eq, alignAdjacency_eq, originsOf]

/-! ## The reply (R83) -/

theorem entryBytes_eq (limit : Nat) (l : List FireEntry) : entryBytes limit l =
    (List.range l.length).flatMap fun i =>
      (l[i]?.map fun x => byte (x.zone.number + if i < limit then 128 else 0)).toList := by
  induction l generalizing limit with
  | nil => rfl
  | cons e es ih =>
    rw [List.length_cons, List.range_succ_eq_map, List.flatMap_cons, List.flatMap_map]
    cases limit with
    | zero => simp [entryBytes, ih]
    | succ n => simp [entryBytes, ih]

theorem bitsOf_cons (b : Bool) (bs : List Bool) : bitsOf (b :: bs) = b.toNat + 2 * bitsOf bs := by cases b <;> rfl

theorem bitsOf_nil : bitsOf [] = 0 := rfl

theorem flag_eq (n : Nat) (b : Bool) : (if b = true then n else 0) = n * b.toNat := by cases b <;> simp

theorem Trouble.code_eq (t : Trouble) :
    let bit (i : Nat) (b : Bool) : Nat := if b then 2 ^ i else 0
    t.code = bit 0 t.fLink + bit 1 t.channel + bit 2 t.damper + bit 3 t.fan + bit 4 t.groupUnserved +
      bit 5 t.fireBudget + bit 6 t.settings + bit 7 t.panelSwitch := by
  simp only [flag_eq, Trouble.code, bitsOf_cons, bitsOf_nil]
  omega

theorem State.replyFlags_eq (s : State) (tag again : Bool) :
    let bit (i : Nat) (b : Bool) : Nat := if b then 2 ^ i else 0
    s.replyFlags tag again = byte (bit 0 tag + bit 1 again + bit 2 s.pif.panelKey + 16 * s.plant.spm.state.code) := by
  refine congrArg byte ?_
  simp only [flag_eq, bitsOf_cons, bitsOf_nil]
  omega

/-! ## The frame carried out (R72 to R74) -/

theorem State.takeSlot_repeat {s : State} {f : ZoneStateFrame} (slot : s.fif.slot = some f)
    (last : s.fif.lastTag = some f.tag) :
    s.takeSlot = ({ s with fif := { s.fif with slot := none } }).answerF f.tag true := by
  simp only [State.takeSlot, slot, last, if_true]

theorem State.takeSlot_new {s : State} {f : ZoneStateFrame} (slot : s.fif.slot = some f)
    (last : s.fif.lastTag ≠ some f.tag) :
    s.takeSlot = ({ s with fif := { s.fif with slot := none } }).acceptFrame f := by
  simp only [State.takeSlot, slot, last, if_false]

theorem State.takeSlot_none {s : State} (slot : s.fif.slot = none) : s.takeSlot = s := by rw [State.takeSlot, slot]

/-- The link brought UP: the contact claims go, unless it was UP already (R74). -/
theorem State.raiseFLink_spec (s : State) :
    s.raiseFLink = { s with plant := s.raiseFLink.plant, fif := { s.fif with link := .up } } ∧
      s.plant.OnlySource .fireContact s.raiseFLink.plant ∧
      ∀ z, s.raiseFLink.claims z = if s.fif.link = .up then s.claims z else withoutSource .fireContact (s.claims z) := by
  by_cases up : s.fif.link = .up
  · have idle : s.raiseFLink = s := if_pos up
    rw [idle, ← up]
    exact ⟨rfl, .refl _ _, fun z => (if_pos rfl).symm⟩
  · have raised : s.raiseFLink = ({ s with fif := { s.fif with link := .up } }).removeContact := if_neg up
    have handed := ({ s with fif := { s.fif with link := .up } }).removeContact_handed
    have claims := ({ s with fif := { s.fif with link := .up } }).removeContact_claims
    rw [raised]
    generalize ({ s with fif := { s.fif with link := .up } } : State).removeContact = t at handed claims
    exact ⟨handed.of_contact, handed.claims, fun z => (claims z).trans (if_neg up).symm⟩

theorem State.answerF_wire (s : State) (tag again : Bool) :
    (s.answerF tag again).wire.fLink = Frame.bytes ⟨0#8, 129#8, s.smokeReply tag again⟩ :: s.wire.fLink := rfl

theorem State.answerF_smokeReply (s : State) (x y tag again : Bool) :
    (s.answerF x y).smokeReply tag again = s.smokeReply tag again := rfl

theorem State.refreshPins_smokeReply (s : State) (tag again : Bool) :
    s.refreshPins.smokeReply tag again = s.smokeReply tag again := rfl

/-- A new zone-state frame, record by record. -/
theorem State.acceptFrame_spec (s : State) (f : ZoneStateFrame) :
    let t := s.acceptFrame f
    t = { s with
        plant := t.plant
        fif := { s.fif with link := .up, lastTag := some f.tag, lastMap := f.map, timer := some s.cfg.timers.fLink }
        wire := { s.wire with fLink := t.wire.fLink } } ∧
      t.wire.fLink = Frame.bytes ⟨0#8, 129#8, t.smokeReply f.tag false⟩ :: s.wire.fLink ∧
      t.plant.fireOrder = updateFireOrder f.map f.reset s.plant.fireOrder ∧
      (updateFireOrder f.map f.reset s.plant.fireOrder ≠ s.plant.fireOrder → t.plant.events.has .fireChange = true) ∧
      (∀ z, t.claims z = if s.fif.link = .up then fireClaims s.cfg f.map f.reset s.plant z
        else withoutSource .fireContact (fireClaims s.cfg f.map f.reset s.plant z)) ∧
      t.plant.spm = s.plant.spm := by
  obtain ⟨claims, fireOrder, spm, events⟩ := fireUpdate_spec s.cfg f.map f.reset s.plant
  set u : State := { s with fif := { s.fif with
    lastTag := some f.tag, lastMap := f.map, timer := some s.cfg.timers.fLink } }
  have accepted : s.acceptFrame f =
    (State.raiseFLink { u with plant := fireUpdate s.cfg f.map f.reset s.plant }).answerF f.tag false := rfl
  generalize fireUpdate s.cfg f.map f.reset s.plant = p at claims fireOrder spm events accepted
  obtain ⟨only, source, lists⟩ := ({ u with plant := p } : State).raiseFLink_spec
  generalize ({ u with plant := p } : State).raiseFLink = t at accepted only source lists
  rw [accepted]
  refine ⟨?_, ?_, source.fireOrder.trans fireOrder, fun changed => source.events _ (events changed), fun z => ?_,
    source.spm.trans spm⟩
  · rw [only]
    rfl
  · rw [State.answerF_wire, State.answerF_smokeReply, only]
  · have before : ({ u with plant := p } : State).claims z = _ := claims z
    refine (lists z).trans ?_
    rw [before]

/-- Settles O43. -/
theorem zoneStateFramesUpdateTheFireOrder : Obligations.ZoneStateFramesUpdateTheFireOrder := by
  refine ⟨fun s f h slot last => ?_, fun s h => ⟨fun f slot last => ?_, fun slot => ?_⟩, fun s tag again => ?_⟩
  · have taken := State.takeSlot_new slot last
    have spec := ({ s with fif := { s.fif with slot := none } } : State).acceptFrame_spec f
    dsimp only at spec
    generalize ({ s with fif := { s.fif with slot := none } } : State).acceptFrame f = t at taken spec
    obtain ⟨only, wire, fireOrder, events, claims, spm⟩ := spec
    have ended := exec_handled h (c := .zoneStateFrame) rfl taken (by rw [only]) (by rw [only])
    refine ⟨t.refreshPins, ended, ?_, ?_, ?_, fun z => ?_, spm, ?_, ?_⟩
    · exact congrArg State.fif only
    · exact fireOrder.trans (updateFireOrder_eq _ _ _)
    · intro changed
      exact events (fireOrder ▸ changed)
    · refine (claims z).trans ?_
      rw [fireClaims_eq]
      simp only [State.refreshPins_plant, fireOrder]
      rfl
    · rw [State.refreshPins_smokeReply]
      exact wire
    · rw [only]
      rfl
  · exact exec_handled h (c := .zoneStateFrame) rfl (State.takeSlot_repeat slot last)
  · exact exec_handled h (c := .zoneStateFrame) rfl (State.takeSlot_none slot)
  · refine ⟨s.troubleNow_says, ?_⟩
    unfold State.smokeReply
    rw [s.replyFlags_eq, s.troubleNow.code_eq, entryBytes_eq]
    refine congrArg₂ (· ++ ·) (congrArg₂ (· ++ ·) (congrArg₂ (· ++ ·) ?_ ?_) rfl) (List.flatMap_congr fun i _ => ?_)
    · cases s.plant.spm.state <;> rfl
    · refine List.map_congr_left fun z _ => ?_
      cases (s.plant.zones.get z).status <;> rfl
    · cases s.plant.fireOrder[i]? <;> rfl

end Sys2Proof.Machine

/-! Sensing: the GAS claim of a zone, samples, delays, run-ons and inhibits. -/

namespace Sys2Proof.Machine

/-! ## The GAS claim of a zone (R62 to R65) -/

theorem PerZone.set_set {α : Type} (t : PerZone α) (z : Zone) (x y : α) : (t.set z x).set z y = t.set z y :=
  PerZone.ext_get fun i => by simp only [PerZone.get_set]; split <;> rfl

section
variable {s : State} {z : Zone} {w : Option GasClaim}

theorem State.sendGas_same (h : (s.fev.zones.get z).gas = w) : s.sendGas z w = s := if_pos h

theorem State.sendGas_some {g : GasClaim} (h : (s.fev.zones.get z).gas ≠ some g) :
    s.sendGas z (some g) = (s.setZoneEval z { s.fev.zones.get z with gas := some g }).place z (gasClaim g) := if_neg h

theorem State.sendGas_none (h : (s.fev.zones.get z).gas ≠ none) :
    s.sendGas z none = (s.setZoneEval z { s.fev.zones.get z with gas := none }).remove z .gas := if_neg h

theorem State.sendGas_zones (y : Zone) : (s.sendGas z w).fev.zones.get y =
    if y = z then ⟨w, (s.fev.zones.get z).runOn⟩ else s.fev.zones.get y := by
  by_cases same : (s.fev.zones.get z).gas = w
  · rw [State.sendGas_same same]
    split
    · rename_i at_z
      rw [at_z, ← same]
    · rfl
  · cases w with
    | some g =>
      rw [State.sendGas_some same]
      exact PerZone.get_set _ _ _ _
    | none =>
      rw [State.sendGas_none same]
      exact PerZone.get_set _ _ _ _

/-- The claim table agrees with FEV about the GAS claim of a zone. -/
def State.GasAgrees (s : State) (z : Zone) : Prop :=
  claimOf .gas (s.plant.zones.get z).claims = (s.fev.zones.get z).gas.map gasClaim

theorem State.GasAgrees.sendGas (h : s.GasAgrees z) : (s.sendGas z w).GasAgrees z := by
  unfold State.GasAgrees
  rw [State.sendGas_zones, if_pos rfl]
  by_cases same : (s.fev.zones.get z).gas = w
  · rw [State.sendGas_same same, ← same]
    exact h
  · cases w with
    | some g =>
      rw [State.sendGas_some same]
      exact (place_claimOf s.cfg z z (gasClaim g) s.plant).trans (if_pos rfl)
    | none =>
      rw [State.sendGas_none same]
      exact (remove_claimOf s.cfg z z .gas s.plant).trans (if_pos rfl)

theorem State.setRunOn_zones (t : Option Nat) (y : Zone) : (s.setRunOn z t).fev.zones.get y =
    if y = z then ⟨(s.fev.zones.get z).gas, t⟩ else s.fev.zones.get y := PerZone.get_set _ _ _ _

theorem State.GasAgrees.setRunOn (h : s.GasAgrees z) (t : Option Nat) : (s.setRunOn z t).GasAgrees z := by
  unfold State.GasAgrees
  rw [State.setRunOn_zones, if_pos rfl]
  exact h

theorem State.recomputeZone_a2 {b : Bool} (h : s.zoneInA2 z = true) :
    s.recomputeZone z b = (s.setRunOn z none).sendGas z (some ⟨4, 100⟩) := if_pos h

theorem State.recomputeZone_demand {b : Bool} (h : s.zoneInA2 z = false) (d : 0 < s.gasDemand z) :
    s.recomputeZone z b = (s.setRunOn z none).sendGas z (some ⟨3, s.gasDemand z⟩) := by
  rw [State.recomputeZone, h, if_neg (by decide), if_pos d]

theorem State.recomputeZone_free {b : Bool} (h : s.zoneInA2 z = false) (d : s.gasDemand z = 0)
    (gas : (s.fev.zones.get z).gas = none) : s.recomputeZone z b = s := by
  simp [State.recomputeZone, h, d, gas]

theorem State.recomputeZone_runs {b : Bool} {g : GasClaim} {n : Nat} (h : s.zoneInA2 z = false) (d : s.gasDemand z = 0)
    (gas : (s.fev.zones.get z).gas = some g) (runOn : (s.fev.zones.get z).runOn = some n) :
    s.recomputeZone z b = s.sendGas z (some (s.runOnClaim z)) := by
  simp [State.recomputeZone, h, d, gas, runOn]

theorem State.recomputeZone_starts {g : GasClaim} (h : s.zoneInA2 z = false) (d : s.gasDemand z = 0)
    (gas : (s.fev.zones.get z).gas = some g) (runOn : (s.fev.zones.get z).runOn = none)
    (time : 0 < (s.cfg.channels.zone.get z).runOn) :
    s.recomputeZone z = (s.setRunOn z (some (s.cfg.channels.zone.get z).runOn)).sendGas z (some (s.runOnClaim z)) := by
  simp [State.recomputeZone, h, d, gas, runOn, time]

theorem State.recomputeZone_ends {b : Bool} {g : GasClaim} (h : s.zoneInA2 z = false) (d : s.gasDemand z = 0)
    (gas : (s.fev.zones.get z).gas = some g) (runOn : (s.fev.zones.get z).runOn = none)
    (time : b = false ∨ (s.cfg.channels.zone.get z).runOn = 0) : s.recomputeZone z b = s.sendGas z none := by
  have none : ¬(b = true ∧ 0 < (s.cfg.channels.zone.get z).runOn) := by
    rcases time with rfl | zero
    · simp
    · simp [zero]
  simp only [State.recomputeZone, h, d, gas, runOn, none, if_false, Bool.false_eq_true, Nat.lt_irrefl]

end

/-- A zone's evaluation record after it is recomputed. -/
def State.zoneAfter (s : State) (z : Zone) (mayStart : Bool) : ZoneEval :=
  let e := s.fev.zones.get z
  let time := (s.cfg.channels.zone.get z).runOn
  if s.zoneInA2 z then ⟨some ⟨4, 100⟩, none⟩
  else if 0 < s.gasDemand z then ⟨some ⟨3, s.gasDemand z⟩, none⟩
  else if e.gas = none then e
  else if e.runOn ≠ none then { e with gas := some (s.runOnClaim z) }
  else if mayStart = true ∧ 0 < time then ⟨some (s.runOnClaim z), some time⟩
  else ⟨none, none⟩

/-- What a recomputation does to the evaluation records of the zones, and that it keeps claim table and record equal. -/
theorem State.recomputeZone_spec (s : State) (z : Zone) (b : Bool) :
    (∀ y, (s.recomputeZone z b).fev.zones.get y = if y = z then s.zoneAfter z b else s.fev.zones.get y) ∧
      (s.GasAgrees z → (s.recomputeZone z b).GasAgrees z) := by
  unfold State.zoneAfter
  dsimp only
  cases a2 : s.zoneInA2 z with
  | true =>
    rw [State.recomputeZone_a2 a2]
    refine ⟨fun y => ?_, fun h => (h.setRunOn none).sendGas⟩
    simp only [State.sendGas_zones, State.setRunOn_zones, if_true]
    split <;> rfl
  | false =>
    rcases Nat.eq_zero_or_pos (s.gasDemand z) with zero | demand
    · simp only [zero, Nat.lt_irrefl, if_false, Bool.false_eq_true]
      cases gas : (s.fev.zones.get z).gas with
      | none =>
        rw [State.recomputeZone_free a2 zero gas, if_pos rfl]
        refine ⟨fun y => ?_, id⟩
        split
        · rename_i at_z
          rw [at_z]
        · rfl
      | some g =>
        rw [if_neg (by simp)]
        cases runOn : (s.fev.zones.get z).runOn with
        | some n =>
          rw [State.recomputeZone_runs a2 zero gas runOn, if_pos (by simp)]
          exact ⟨fun y => by rw [State.sendGas_zones, runOn], fun h => h.sendGas⟩
        | none =>
          rw [if_neg (by simp)]
          by_cases starts : b = true ∧ 0 < (s.cfg.channels.zone.get z).runOn
          · obtain ⟨rfl, time⟩ := starts
            rw [State.recomputeZone_starts a2 zero gas runOn time, if_pos ⟨rfl, time⟩]
            refine ⟨fun y => ?_, fun h => (h.setRunOn _).sendGas⟩
            simp only [State.sendGas_zones, State.setRunOn_zones, if_true]
            split <;> rfl
          · have ends : b = false ∨ (s.cfg.channels.zone.get z).runOn = 0 := by
              rw [not_and_or, Bool.not_eq_true, Nat.not_lt, Nat.le_zero] at starts
              exact starts
            rw [State.recomputeZone_ends a2 zero gas runOn ends, if_neg starts]
            refine ⟨fun y => ?_, fun h => h.sendGas⟩
            rw [State.sendGas_zones, runOn]
    · rw [State.recomputeZone_demand a2 demand, if_neg (by decide), if_pos demand]
      refine ⟨fun y => ?_, fun h => (h.setRunOn none).sendGas⟩
      simp only [State.sendGas_zones, State.setRunOn_zones, if_true]
      split <;> rfl

theorem State.zoneInA2_iff (s : State) (z : Zone) : s.zoneInA2 z = true ↔
    ∃ c, ((s.cfg.channels.channel.get c).zone = some z ∧ (s.channel c).condition = .active ∧ (s.channel c).ring ≠ none) ∧
      (s.eval c).alarm = .a2 := by
  simp [State.zoneInA2, Settings.zoneChannels, State.countedChannel, Option.isSome_iff_ne_none, and_assoc]

theorem State.mem_countedChannels {s : State} {z : Zone} {c : Channel} :
    c ∈ (s.cfg.zoneChannels z).filter s.countedChannel ↔ (s.cfg.channels.channel.get c).zone = some z ∧
      (s.channel c).condition = .active ∧ (s.channel c).ring ≠ none := by
  simp [Settings.zoneChannels, State.countedChannel, Option.isSome_iff_ne_none, and_comm]

theorem State.faulty_iff (s : State) (z : Zone) :
    ((s.cfg.zoneChannels z).any fun c => (s.channel c).condition == .fault) = true ↔
      ∃ c, (s.cfg.channels.channel.get c).zone = some z ∧ (s.channel c).condition = .fault := by
  simp [Settings.zoneChannels]

theorem largest_map_eq {α : Type} (f : α → Nat) (l : List α) :
    largest (l.map f) = 0 ∨ ∃ a ∈ l, f a = largest (l.map f) := by
  cases l with
  | nil => exact .inl rfl
  | cons a l => exact .inr (List.mem_map.mp (largest_mem (by simp)))

theorem State.gasDemand_attained (s : State) (z : Zone) : s.gasDemand z = 0 ∨
    (∃ c ∈ (s.cfg.zoneChannels z).filter s.countedChannel, (s.eval c).demand = s.gasDemand z) ∨
      (∃ c, (s.cfg.channels.channel.get c).zone = some z ∧ (s.channel c).condition = .fault) ∧
        (s.cfg.channels.zone.get z).faultDemand = s.gasDemand z := by
  rw [← s.faulty_iff z]
  unfold State.gasDemand
  generalize fault : (if ((s.cfg.zoneChannels z).any fun c => (s.channel c).condition == .fault) = true then
    (s.cfg.channels.zone.get z).faultDemand else 0) = n
  rcases Nat.le_total n (largest (((s.cfg.zoneChannels z).filter s.countedChannel).map fun c => (s.eval c).demand)) with
    le | le
  · rw [Nat.max_eq_left le]
    exact (largest_map_eq _ _).imp_right .inl
  · rw [Nat.max_eq_right le]
    split at fault
    · rename_i faulty
      exact .inr (.inr ⟨faulty, fault⟩)
    · exact .inl fault.symm

theorem channelDemand_clear (x : ChannelSetting) (v c : Nat) : channelDemand x v c false = 0 := rfl

theorem channelDemand_below {x : ChannelSetting} {c : Nat} (h : c < x.start) (v : Nat) : channelDemand x v c true = v := by
  rw [channelDemand, if_neg (by decide), if_pos h]

theorem channelDemand_between {x : ChannelSetting} {c : Nat} (low : x.start ≤ c) (high : c < x.alarm2) (v : Nat) :
    channelDemand x v c true = v + ceilDiv ((c - x.start) * (100 - v)) (x.alarm2 - x.start) := by
  rw [channelDemand, if_neg (by decide), if_neg low.not_gt, if_pos high]

theorem channelDemand_above {x : ChannelSetting} {c : Nat} (low : x.start ≤ c) (high : x.alarm2 ≤ c) (v : Nat) :
    channelDemand x v c true = 100 := by
  rw [channelDemand, if_neg (by decide), if_neg low.not_gt, if_neg high.not_gt]

theorem ChannelEval.evaluate_demand (x : ChannelSetting) (v c : Nat) (e : ChannelEval) :
    (e.evaluate x v c).demand = channelDemand x v c (ventingAfter x c e.venting) := rfl

/-- Settles O47: the recomputation's result by its cases, the demand as a largest, and a channel's demand by its range. -/
theorem gasClaimFollowsTheChannels : Obligations.GasClaimFollowsTheChannels := by
  refine ⟨fun s z agree => ?_, fun s z => ⟨s.zoneInA2_iff z, fun c counted => ?_, fun faulty => ?_, ?_⟩,
    fun x v c e order => ⟨fun clear => ?_, fun venting below => ?_, fun above => ?_, fun low high => ?_⟩⟩
  · obtain ⟨zones, agrees⟩ := s.recomputeZone_spec z true
    have own := zones z
    rw [if_pos rfl] at own
    refine ⟨agrees agree, (s.recomputeZone_handed z true).claims, fun a2 => ?_, fun a2 demand => ?_, fun a2 zero =>
      ⟨fun free => State.recomputeZone_free a2 zero free, fun g gas => ⟨fun n runOn => ?_, fun runOn time => ?_,
        fun runOn time => ?_⟩⟩⟩
    · rw [own, State.zoneAfter, if_pos a2]
    · simp [own, State.zoneAfter, a2, demand]
    · simp [own, State.zoneAfter, a2, zero, gas, runOn, State.runOnClaim]
    · simp [own, State.zoneAfter, a2, zero, gas, runOn, time, State.runOnClaim]
    · simp [own, State.zoneAfter, a2, zero, gas, runOn, time]
  · exact le_max_of_le_left (le_largest (List.mem_map.mpr ⟨c, State.mem_countedChannels.mpr counted, rfl⟩))
  · exact le_max_of_le_right (if_pos ((s.faulty_iff z).mpr faulty)).ge
  · refine (s.gasDemand_attained z).imp_right (Or.imp_left ?_)
    rintro ⟨c, mem, demand⟩
    exact ⟨c, State.mem_countedChannels.mp mem, demand⟩
  all_goals simp only [ChannelEval.evaluate_venting, ChannelEval.evaluate_demand] at *
  · rw [clear, channelDemand_clear]
  · rw [venting, channelDemand_below below]
  · have low : x.start ≤ c := by omega
    rw [ventingAfter_of_start_le _ low, channelDemand_above low above]
  · rw [ventingAfter_of_start_le _ low, channelDemand_between low high]
    exact ⟨_, rfl, le_ceilDiv_mul _ (by omega), ceilDiv_mul_lt _ (by omega)⟩

/-! ## Delays and run-ons (R58, R65) -/

theorem State.gasDemand_setRunOn (s : State) (z y : Zone) (t : Option Nat) : (s.setRunOn z t).gasDemand y = s.gasDemand y :=
  rfl

theorem State.zoneInA2_setRunOn (s : State) (z y : Zone) (t : Option Nat) : (s.setRunOn z t).zoneInA2 y = s.zoneInA2 y :=
  rfl

/-- Settles O48. -/
theorem delaysAndRunOnsExpire : Obligations.DelaysAndRunOnsExpire := by
  refine fun s h => ⟨fun c pending expired => ?_, fun z expired quiet zero gas => ?_⟩
  · exact exec_handled h (c := .alarmDelayExpiry c) rfl (if_pos ⟨pending, expired⟩)
  · obtain ⟨g, held⟩ := Option.isSome_iff_exists.mp gas
    have record := State.setRunOn_zones (s := s) (z := z) none z
    rw [if_pos rfl] at record
    have ended := State.recomputeZone_ends (s := s.setRunOn z none) (b := false) quiet zero
      ((congrArg ZoneEval.gas record).trans held) (congrArg ZoneEval.runOn record) (.inl rfl)
    rw [State.sendGas_none (by rw [record, held]; simp), record] at ended
    have expires : s.expireRunOn z = (s.setRunOn z none).recomputeZone z false := if_pos expired
    refine ⟨_, exec_handled h (c := .runOnExpiry z) rfl (expires.trans ended), remove_spec _ _ _ _, ?_⟩
    have zones : ((s.setRunOn z none).setZoneEval z ⟨none, none⟩).fev.zones = s.fev.zones.set z ⟨none, none⟩ :=
      PerZone.set_set _ _ _ _
    rw [← zones]
    rfl

/-! ## Evaluation and the zone of a channel -/

theorem State.channelVStart_some {s : State} {c : Channel} {z : Zone} (h : (s.cfg.channels.channel.get c).zone = some z) :
    s.channelVStart c = (s.cfg.channels.zone.get z).vStart := by rw [State.channelVStart, h]

theorem State.recomputeChannelZone_some {s : State} {c : Channel} {z : Zone}
    (h : (s.cfg.channels.channel.get c).zone = some z) : s.recomputeChannelZone c = s.recomputeZone z := by
  rw [State.recomputeChannelZone, h]

theorem State.takeEntry_eq {s : State} {c : Channel} {z : Zone} (h : (s.cfg.channels.channel.get c).zone = some z) :
    s.takeEntry c =
      let e := (s.eval c).evaluate (s.cfg.channels.channel.get c) (s.cfg.channels.zone.get z).vStart (s.channel c).average
      ((s.setEval c e).onPlant fun p => p.raiseIf (entersAlarm (s.eval c).alarm e.alarm) .gasAlarm).recomputeZone z := by
  dsimp only
  rw [State.takeEntry, State.evaluate, State.channelVStart_some h]
  exact State.recomputeChannelZone_some h

theorem State.stopEvaluation_eq {s : State} {c : Channel} {z : Zone} (h : (s.cfg.channels.channel.get c).zone = some z) :
    s.stopEvaluation c = (s.setEval c .blank).recomputeZone z := State.recomputeChannelZone_some h

theorem State.Handed.of_gas {s t : State} (h : s.Handed .gas t) : t = { s with
    plant := t.plant, fev := { s.fev with zones := t.fev.zones } } := by
  have pif := h.pif (by decide)
  have dck := h.dck (by decide)
  have bli := h.bli (by decide)
  conv_lhs => rw [h.only, pif, dck, bli]

theorem State.Handed.evals {s t : State} (h : s.Handed .gas t) : t.fev.channels = s.fev.channels := by rw [h.of_gas]

theorem State.Handed.scn {src : Source} {s t : State} (h : s.Handed src t) : t.scn = s.scn := by rw [h.only]

/-- From `s` to `t`, sensing has written its own records and the GAS claims have followed. -/
def State.Sensed (s t : State) : Prop :=
  s.plant.OnlySource .gas t.plant ∧ t = { s with plant := t.plant, scn := t.scn, fev := t.fev }

theorem State.Sensed.refl (s : State) : s.Sensed s := ⟨.refl _ _, rfl⟩

theorem State.Sensed.trans {s t u : State} (h : s.Sensed t) (k : t.Sensed u) : s.Sensed u :=
  ⟨h.1.trans k.1, by rw [k.2, h.2]⟩

theorem State.Handed.sensed {s t : State} (h : s.Handed .gas t) : s.Sensed t := by
  have scn := h.scn
  have only := h.of_gas
  refine ⟨h.claims, ?_⟩
  rw [scn]
  rw [only]

theorem State.setChannel_sensed (s : State) (c : Channel) (r : ChannelRec) : s.Sensed (s.setChannel c r) := ⟨.refl _ _, rfl⟩

theorem State.setInhibits_sensed (s : State) (l : List Inhibit) : s.Sensed (s.setInhibits l) := ⟨.refl _ _, rfl⟩

theorem State.evaluate_sensed (s : State) (c : Channel) : s.Sensed (s.evaluate c) :=
  ⟨by
    unfold State.evaluate
    dsimp only [State.onPlant]
    generalize entersAlarm _ _ = b
    cases b
    · exact .refl _ _
    · exact s.plant.raise_onlySource _ _, rfl⟩

theorem State.takeEntry_sensed (s : State) (c : Channel) : s.Sensed (s.takeEntry c) :=
  (s.evaluate_sensed c).trans (State.recomputeChannelZone_handed _ c).sensed

theorem State.takeEntry_records (s : State) (c : Channel) : (s.takeEntry c).scn = s.scn ∧
    (s.takeEntry c).fev.channels = s.fev.channels.set c
      ((s.eval c).evaluate (s.cfg.channels.channel.get c) (s.channelVStart c) (s.channel c).average) :=
  ⟨(State.recomputeChannelZone_handed (s.evaluate c) c).scn, (State.recomputeChannelZone_handed (s.evaluate c) c).evals⟩

theorem State.stopEvaluation_sensed (s : State) (c : Channel) : s.Sensed (s.stopEvaluation c) :=
  State.Sensed.trans (t := s.setEval c .blank) ⟨.refl _ _, rfl⟩ (State.recomputeChannelZone_handed _ c).sensed

theorem State.stopEvaluation_records (s : State) (c : Channel) :
    (s.stopEvaluation c).scn = s.scn ∧ (s.stopEvaluation c).fev.channels = s.fev.channels.set c .blank :=
  ⟨(State.recomputeChannelZone_handed (s.setEval c .blank) c).scn,
    (State.recomputeChannelZone_handed (s.setEval c .blank) c).evals⟩

/-! ## The inhibit list (R43 to R48) -/

theorem inhibitTime_eq (n t : Nat) : inhibitTime n t =
    (if t = 0 then n else max 60 (min t 3600), decide (t ≠ 0 ∧ (t < 60 ∨ 3600 < t))) := by
  unfold inhibitTime
  split
  · rename_i zero
    simp [zero]
  · rename_i time
    split
    · rename_i short
      simp [time, short, Nat.max_eq_left (Nat.min_le_left t 3600 |>.trans short.le)]
    · split
      · rename_i long
        simp [time, long, Nat.min_eq_right long.le]
      · rename_i low high
        simp [time, low, high, Nat.min_eq_left (Nat.not_lt.mp high), Nat.max_eq_right (Nat.not_lt.mp low)]

theorem requestHandler_inhibit {n : Byte} {c : Channel} (h : n.toNat = c.number) (w : Word) (s : State) :
    requestHandler (.inhibit n w) s =
      if (s.channel c).condition = .unused then (s, .refused .state)
      else if s.listed c then (s.renewInhibit c (inhibitTime s.cfg.timers.inhibit w.toNat).1,
        .doneClamped (inhibitTime s.cfg.timers.inhibit w.toNat).2)
      else if Config.maxInhibits ≤ s.scn.inhibits.length then (s, .refused .limit)
      else (s.startInhibit c (inhibitTime s.cfg.timers.inhibit w.toNat).1,
        .doneClamped (inhibitTime s.cfg.timers.inhibit w.toNat).2) := by
  simp only [requestHandler, askInhibit, withChannel_number h]

theorem requestHandler_restore {n : Byte} {c : Channel} (h : n.toNat = c.number) (s : State) :
    requestHandler (.restore n) s = if s.listed c then
      ((s.setInhibits (withoutChannel c s.scn.inhibits)).endInhibit c, .done) else (s, .refused .state) := by
  simp only [requestHandler, askRestore, withChannel_number h]

/-- A request whose handling sensing has made. -/
theorem exec_sensed (r : Request) {s t : State} (h : s.Addressed) {a : Answer} (e : requestHandler r s.hearB = (t, a))
    (sensed : s.hearB.Sensed t) (restart : r ≠ .restart := by rintro ⟨⟩) :
    ∃ u, exec (r.command 0) s = .next u ∧ s.Replied u r.kind a ∧ u.scn = t.scn ∧ u.fev = t.fev ∧
      s.plant.OnlySource .gas u.plant ∧ u = { s with
        plant := u.plant, scn := u.scn, fev := u.fev, wire := u.wire, pins := u.pins
        bli := { s.bli with link := u.bli.link, timer := u.bli.timer } } := by
  obtain ⟨claims, only⟩ := sensed
  refine ⟨_, exec_answered r h e (by rw [only]; rfl) (by rw [only]; rfl) restart,
    State.answered_replied _ _ (by rw [only]; rfl) (by rw [only]; rfl) (by rw [only]; rfl), rfl, rfl, claims, ?_⟩
  rw [only]
  rfl

/-- Settles O49. -/
theorem inhibitTakesAChannelOut : Obligations.InhibitTakesAChannelOut := by
  refine ⟨fun s c n w h number => ?_, fun e l => ⟨enterInhibit_perm e l, enterInhibit_split e l⟩⟩
  have handled := requestHandler_inhibit number w s.hearB
  rw [inhibitTime_eq] at handled
  refine ⟨fun unused => ?_, fun used listed => ?_, fun used free full => ?_, fun used free room => ?_⟩
  · exact exec_replied (.inhibit n w) h (handled.trans (if_pos unused))
  · exact exec_answered (.inhibit n w) h (handled.trans ((if_neg used).trans (if_pos listed)))
  · exact exec_replied (.inhibit n w) h (handled.trans
      ((if_neg used).trans ((if_neg (Bool.not_eq_true _ ▸ free)).trans (if_pos full))))
  · have carried := handled.trans
      ((if_neg used).trans ((if_neg (Bool.not_eq_true _ ▸ free)).trans (if_neg (Nat.not_le.mpr room))))
    dsimp only at carried
    obtain ⟨scn, evals⟩ := State.stopEvaluation_records ((s.hearB.setInhibits (enterInhibit
      ⟨c, if w.toNat = 0 then s.cfg.timers.inhibit else max 60 (min w.toNat 3600)⟩ s.scn.inhibits)).setChannel c
        { s.channel c with condition := .inhibited, faultHeld := (s.channel c).condition == .fault }) c
    obtain ⟨t, ran, replied, records, evaluations, claims, only⟩ := exec_sensed (.inhibit n w) h carried
      (((s.hearB.setInhibits_sensed _).trans (State.setChannel_sensed _ c _)).trans (State.stopEvaluation_sensed _ c))
    exact ⟨t, ran, replied, records.trans scn, (congrArg Fev.channels evaluations).trans evals, claims, only⟩

section
variable {s : State} {c : Channel}

theorem State.endInhibit_held (h : (s.channel c).faultHeld = true) : s.endInhibit c =
    (s.setChannel c { s.channel c with condition := .fault, faultHeld := false }).stopEvaluation c := if_pos h

theorem State.endInhibit_primed (h : (s.channel c).faultHeld = false) (ring : (s.channel c).ring.isSome = true) :
    s.endInhibit c = (s.setChannel c { s.channel c with condition := .active }).takeEntry c :=
  (if_neg (Bool.not_eq_true _ ▸ h)).trans (if_pos ring)

theorem State.endInhibit_blank (h : (s.channel c).faultHeld = false) (ring : (s.channel c).ring = none) :
    s.endInhibit c = (s.setChannel c { s.channel c with condition := .active }).recomputeChannelZone c :=
  (if_neg (Bool.not_eq_true _ ▸ h)).trans (if_neg (by rw [ring]; decide))

end

/-- What the end of a channel's inhibit does to the records of sensing (R48, R61). -/
theorem State.endInhibit_spec (s : State) (c : Channel) {z : Zone} (zone : (s.cfg.channels.channel.get c).zone = some z) :
    let old := s.channel c
    let t := s.endInhibit c
    t.scn = { s.scn with channels := s.scn.channels.set c (if old.faultHeld then
        { old with condition := .fault, faultHeld := false } else { old with condition := .active }) } ∧
      (old.faultHeld = true → t.fev.channels = s.fev.channels.set c .blank) ∧
      (old.faultHeld = false → old.ring.isSome = true → t.fev.channels = s.fev.channels.set c
        ((s.eval c).evaluate (s.cfg.channels.channel.get c) (s.cfg.channels.zone.get z).vStart old.average)) ∧
      (old.faultHeld = false → old.ring = none → t.fev.channels = s.fev.channels) ∧ s.Sensed t := by
  dsimp only
  rcases Bool.eq_false_or_eq_true (s.channel c).faultHeld with held | free
  · rw [State.endInhibit_held held, if_pos held]
    obtain ⟨scn, evals⟩ :=
      (s.setChannel c { s.channel c with condition := .fault, faultHeld := false }).stopEvaluation_records c
    exact ⟨scn, fun _ => evals, fun free => absurd (held.symm.trans free) (by decide),
      fun free => absurd (held.symm.trans free) (by decide),
      (s.setChannel_sensed c _).trans (State.stopEvaluation_sensed _ c)⟩
  · have unheld : ¬ (s.channel c).faultHeld = true := Bool.not_eq_true _ ▸ free
    rw [if_neg unheld]
    by_cases ring : (s.channel c).ring = none
    · rw [State.endInhibit_blank free ring]
      have handed := (s.setChannel c { s.channel c with condition := .active }).recomputeChannelZone_handed c
      exact ⟨handed.scn, (absurd · unheld), fun _ primed => absurd primed (by rw [ring]; decide),
        fun _ _ => handed.evals, (s.setChannel_sensed c _).trans handed.sensed⟩
    · rw [State.endInhibit_primed free (Option.isSome_iff_ne_none.mpr ring)]
      obtain ⟨scn, evals⟩ := (s.setChannel c { s.channel c with condition := .active }).takeEntry_records c
      rw [State.channelVStart_some (s := s.setChannel c _) zone,
        show (s.setChannel c { s.channel c with condition := .active }).channel c =
          { s.channel c with condition := .active } from PerChannel.get_set_self _ _ _] at evals
      exact ⟨scn, (absurd · unheld), fun _ _ => evals, fun _ blank => absurd blank ring,
        (s.setChannel_sensed c _).trans (State.takeEntry_sensed _ c)⟩

/-- Settles O50. -/
theorem inhibitsEnd : Obligations.InhibitsEnd := by
  refine fun s c z n number zone => ⟨fun h free => ?_, fun h listed => ?_, fun h expired => ?_⟩
  · exact exec_replied (.restore n) h ((requestHandler_restore number s.hearB).trans (if_neg (Bool.not_eq_true _ ▸ free)))
  · have carried := (requestHandler_restore number s.hearB).trans (if_pos listed)
    obtain ⟨scn, held, primed, blank, sensed⟩ :=
      (s.hearB.setInhibits (withoutChannel c s.hearB.scn.inhibits)).endInhibit_spec c zone
    obtain ⟨t, ran, replied, records, evaluations, claims, only⟩ := exec_sensed (.restore n) h carried
      ((s.hearB.setInhibits_sensed _).trans sensed)
    refine ⟨t, ran, replied, ⟨records.trans scn, ?_, ?_, ?_, claims⟩, only⟩ <;> rw [evaluations]
    exacts [held, primed, blank]
  · have member : (s.scn.inhibits.any fun e => e.channel == c && e.remaining == 0) = true :=
      List.any_eq_true.mpr ⟨_, expired, by simp⟩
    have expires : s.expireInhibit c = (s.setInhibits (withoutChannel c s.scn.inhibits)).endInhibit c := if_pos member
    obtain ⟨scn, held, primed, blank, sensed⟩ :=
      (s.setInhibits (withoutChannel c s.scn.inhibits)).endInhibit_spec c zone
    obtain ⟨claims, only⟩ := (s.setInhibits_sensed _).trans sensed
    refine ⟨_, exec_handled h (c := .inhibitExpiry c) rfl expires (by rw [only]) (by rw [only]),
      ⟨scn, held, primed, blank, claims⟩, ?_⟩
    rw [only]
    rfl

/-! ## Samples (R32 to R41, R49) -/

section
variable {s : State} {c : Channel} {q : Nat} {r : ChannelRec}

theorem State.convert_next (h : s.nextInScan = some c) : s.convert c q = (s.scanTo c).sample c q := if_pos h

theorem State.sample_nothing (e : (s.channel c).sample (s.cfg.channels.channel.get c).fullScale q = (r, .nothing)) :
    s.sample c q = s.setChannel c r := by simp only [State.sample, e]

theorem State.sample_entered (e : (s.channel c).sample (s.cfg.channels.channel.get c).fullScale q = (r, .entered)) :
    s.sample c q = if r.condition = .active then (s.setChannel c r).takeEntry c else s.setChannel c r := by
  simp only [State.sample, e]

theorem State.sample_confirmed (e : (s.channel c).sample (s.cfg.channels.channel.get c).fullScale q = (r, .faultConfirmed)) :
    s.sample c q =
      (if r.condition = .fault then (s.setChannel c r).stopEvaluation c else s.setChannel c r).raise .channelFault := by
  simp only [State.sample, e]

theorem State.sample_ended (e : (s.channel c).sample (s.cfg.channels.channel.get c).fullScale q = (r, .faultEnded)) :
    s.sample c q = if r.condition = .active then ((s.setChannel c r).recomputeChannelZone c).takeEntry c
      else s.setChannel c r := by simp only [State.sample, e]

end

theorem Ring.mean_same (x : Nat) : (Ring.mean ⟨x, x, x, x⟩) = x := by
  unfold Ring.mean
  dsimp only
  omega

/-- What a search of an ascending list finds: the least element that satisfies the test. -/
theorem find?_eq_some_of_ascending {α : Type} {key : α → Nat} {l : List α} (sorted : l.Pairwise fun a b => key a < key b)
    {p : α → Bool} {c : α} (mem : c ∈ l) :
    l.find? p = some c ↔ p c = true ∧ ∀ d ∈ l, key d < key c → p d = false := by
  rw [List.find?_eq_some_iff_append]
  refine and_congr_right fun _ => ⟨?_, fun least => ?_⟩
  · rintro ⟨before, after, rfl, passed⟩ d member less
    obtain ⟨-, behind, -⟩ := List.pairwise_append.mp sorted
    rcases List.mem_append.mp member with ahead | rest
    · simpa using passed d ahead
    · rcases List.mem_cons.mp rest with rfl | later
      · exact absurd less (Nat.lt_irrefl _)
      · exact absurd less (List.rel_of_pairwise_cons behind later).not_gt
  · obtain ⟨before, after, rfl⟩ := List.append_of_mem mem
    obtain ⟨-, -, across⟩ := List.pairwise_append.mp sorted
    refine ⟨before, after, rfl, fun d ahead => ?_⟩
    simp [least d (List.mem_append_left _ ahead) (across d ahead c List.mem_cons_self)]

theorem Channel.all_ascending : Channel.all.Pairwise fun a b => a.number < b.number := by decide

theorem State.nextInScan_iff (s : State) (c : Channel) : s.nextInScan = some c ↔
    s.scn.scanned < c.number ∧ (s.channel c).condition ≠ .unused ∧
      ∀ d, s.scn.scanned < d.number → d.number < c.number → (s.channel d).condition = .unused := by
  rw [State.nextInScan, find?_eq_some_of_ascending Channel.all_ascending (Channel.mem_all c)]
  simp [and_assoc, Channel.mem_all]
  tauto

theorem concentration_spec (fs q : Nat) :
    (q < 128 ∨ 840 < q → concentration fs q = none) ∧ (128 ≤ q → q < 160 → concentration fs q = some 0) ∧
      (160 ≤ q → q ≤ 800 → concentration fs q = some ((q - 160) * fs / 640)) ∧
      (800 < q → q ≤ 840 → concentration fs q = some fs) := by
  unfold concentration
  refine ⟨fun out => ?_, fun low high => ?_, fun low high => ?_, fun low high => ?_⟩
  · split
    · rfl
    · rw [if_neg (by omega), if_neg (by omega), if_neg (by omega)]
  · rw [if_neg (by omega), if_pos high]
  · rw [if_neg (by omega), if_neg (by omega), if_pos high]
  · rw [if_neg (by omega), if_neg (by omega), if_neg (by omega), if_pos high]

theorem entersAlarm_iff (a b : AlarmState) : entersAlarm a b = true ↔ a ≠ b ∧ (b = .a1 ∨ b = .a2) := by
  simp [entersAlarm, and_comm]

theorem ChannelRec.faulted_of_fault {r : ChannelRec} (h : r.condition = .fault) : r.faulted = true := by
  simp [ChannelRec.faulted, h]

theorem ChannelRec.faulted_of_active {r : ChannelRec} (h : r.condition = .active) : r.faulted = false := by
  simp [ChannelRec.faulted, h]

theorem ChannelRec.faulted_of_inhibited {r : ChannelRec} (h : r.condition = .inhibited) : r.faulted = r.faultHeld := by
  simp [ChannelRec.faulted, h]

/-- What a sample that ends the fault of a channel of a zone does to the records of sensing (R37, R54). -/
theorem State.endFault_spec (s : State) (c : Channel) {z : Zone} (r : ChannelRec)
    (zone : (s.cfg.channels.channel.get c).zone = some z) :
    let t := ((s.setChannel c r).recomputeChannelZone c).takeEntry c
    t.scn = { s.scn with channels := s.scn.channels.set c r } ∧ t.fev.channels = s.fev.channels.set c
      ((s.eval c).evaluate (s.cfg.channels.channel.get c) (s.cfg.channels.zone.get z).vStart r.average) ∧ s.Sensed t := by
  have handed := (s.setChannel c r).recomputeChannelZone_handed c
  have scn := handed.scn
  have evals := handed.evals
  have sensed := (s.setChannel_sensed c r).trans handed.sensed
  dsimp only
  generalize (s.setChannel c r).recomputeChannelZone c = u at scn evals sensed ⊢
  have cfg : u.cfg = s.cfg := by
    unfold State.cfg
    rw [sensed.2]
  have own : u.channel c = r := by
    unfold State.channel
    rw [scn]
    exact PerChannel.get_set_self _ _ _
  obtain ⟨records, evaluations⟩ := u.takeEntry_records c
  have zone' : (u.cfg.channels.channel.get c).zone = some z := by rw [cfg, zone]
  rw [State.channelVStart_some zone', own, State.eval, evals, cfg] at evaluations
  exact ⟨records.trans scn, evaluations, sensed.trans (u.takeEntry_sensed c)⟩

theorem State.setChannel_takeEntry {s : State} {c : Channel} {z : Zone} (r : ChannelRec)
    (h : (s.cfg.channels.channel.get c).zone = some z) : (s.setChannel c r).takeEntry c =
      let e := (s.eval c).evaluate (s.cfg.channels.channel.get c) (s.cfg.channels.zone.get z).vStart r.average
      (((s.setChannel c r).setEval c e).onPlant fun p =>
        p.raiseIf (entersAlarm (s.eval c).alarm e.alarm) .gasAlarm).recomputeZone z := by
  rw [State.takeEntry_eq (s := s.setChannel c r) h,
    show (s.setChannel c r).channel c = r from PerChannel.get_set_self _ _ _]
  rfl

theorem State.raise_sensed (s : State) (e : EventKind) : s.Sensed (s.raise e) := ⟨s.plant.raise_onlySource _ _, rfl⟩

/-- The record of an ACTIVE channel whose fault is confirmed (R35). -/
theorem ChannelRec.confirmFault_active {r : ChannelRec} (h : r.condition = .active) : r.confirmFault =
    { r with condition := .fault, faultHeld := false, ring := none, average := 0, inRun := 0, outRun := 3 } := by
  simp [ChannelRec.confirmFault, h, Config.faultRun]

theorem ChannelRec.confirmFault_inhibited {r : ChannelRec} (h : r.condition = .inhibited) : r.confirmFault =
    { r with faultHeld := true, ring := none, average := 0, inRun := 0, outRun := 3 } := by
  simp [ChannelRec.confirmFault, h, Config.faultRun]

theorem ChannelRec.endFault_fault {r : ChannelRec} (h : r.condition = .fault) (x : Nat) : r.endFault x = { r with
    condition := .active, faultHeld := false, ring := some ⟨x, x, x, x⟩, average := x, inRun := 0, outRun := 0 } := by
  simp [ChannelRec.endFault, ChannelRec.enter, enterRing, Ring.mean_same, h]

theorem ChannelRec.endFault_inhibited {r : ChannelRec} (h : r.condition = .inhibited) (x : Nat) : r.endFault x = { r with
    faultHeld := false, ring := some ⟨x, x, x, x⟩, average := x, inRun := 0, outRun := 0 } := by
  simp [ChannelRec.endFault, ChannelRec.enter, enterRing, Ring.mean_same, h]

theorem State.sample_sensed (s : State) (c : Channel) (q : Nat) : s.Sensed (s.sample c q) := by
  unfold State.sample
  dsimp only
  generalize (s.channel c).sample (s.cfg.channels.channel.get c).fullScale q = made
  obtain ⟨r, effect⟩ := made
  have set := s.setChannel_sensed c r
  cases effect
  case nothing => exact set
  case entered =>
    dsimp only
    split
    exacts [set.trans (State.takeEntry_sensed _ c), set]
  case faultConfirmed =>
    dsimp only
    split
    exacts [(set.trans (State.stopEvaluation_sensed _ c)).trans (State.raise_sensed _ _),
      set.trans (State.raise_sensed _ _)]
  case faultEnded =>
    dsimp only
    split
    exacts [(set.trans (State.recomputeChannelZone_handed _ c).sensed).trans (State.takeEntry_sensed _ c), set]

/-- A conversion of the channel that the scan has come to. -/
theorem exec_sampled {s t : State} {c : Channel} {q : BitVec 10} (h : s.Plain) (next : s.nextInScan = some c)
    (e : (s.scanTo c).sample c q.toNat = t) : exec (.channelSample c q) s = .next t.refreshPins := by
  have sensed := (s.scanTo c).sample_sensed c q.toNat
  rw [e] at sensed
  exact exec_handled h (c := .channelSample c q) rfl ((State.convert_next next).trans e) (by rw [sensed.2]; rfl)
    (by rw [sensed.2]; rfl)

/-- Settles O46: the conversion by the channel's condition and its runs, the scan, and the tables of section 2. -/
theorem samplesDriveTheChannel : Obligations.SamplesDriveTheChannel := by
  refine ⟨fun s c z q h next zone => ?_, fun s c q h next inhibited => ?_, fun s c q h => ?_, State.nextInScan_iff,
    concentration_spec, entersAlarm_iff, fun x r => ⟨rfl, rfl, rfl⟩⟩
  · refine ⟨fun active x within => ?_, fun active out run => ?_, fun active out run => ?_, fun fault out => ?_,
      fun fault x within => ⟨fun run => ?_, fun run => ?_⟩⟩
    · have used : (s.channel c).condition ≠ .unused := active.trans_ne (by decide)
      have sampled := State.sample_entered (s := s.scanTo c)
        (ChannelRec.sample_sound_in used (ChannelRec.faulted_of_active active) within)
      have entered := sampled.trans (if_pos active)
      exact exec_sampled h next (entered.trans (State.setChannel_takeEntry (s := s.scanTo c) _ zone))
    · exact exec_sampled h next (State.sample_nothing (s := s.scanTo c)
        (ChannelRec.sample_sound_out (active.trans_ne (by decide)) (ChannelRec.faulted_of_active active) out
          (Nat.succ_lt_succ run)))
    · have confirmed := ChannelRec.sample_sound_confirm (active.trans_ne (by decide))
        (ChannelRec.faulted_of_active active) out (Nat.succ_le_succ run)
      rw [ChannelRec.confirmFault_active (by exact active)] at confirmed
      have sampled := (State.sample_confirmed (s := s.scanTo c) confirmed).trans
        (congrArg (State.raise · .channelFault) (if_pos rfl))
      exact exec_sampled h next (sampled.trans (congrArg (State.raise · .channelFault)
        (State.stopEvaluation_eq (s := (s.scanTo c).setChannel c _) zone)))
    · exact exec_sampled h next (State.sample_nothing (s := s.scanTo c)
        (ChannelRec.sample_faulted_out (fault.trans_ne (by decide)) (ChannelRec.faulted_of_fault fault) out))
    · exact exec_sampled h next (State.sample_nothing (s := s.scanTo c)
        (ChannelRec.sample_faulted_in (fault.trans_ne (by decide)) (ChannelRec.faulted_of_fault fault) within
          (Nat.succ_lt_succ run)))
    · have ended := ChannelRec.sample_faulted_end (fault.trans_ne (by decide)) (ChannelRec.faulted_of_fault fault) within
        (Nat.succ_le_succ run)
      rw [ChannelRec.endFault_fault (by exact fault)] at ended
      have sampled := (State.sample_ended (s := s.scanTo c) ended).trans (if_pos rfl)
      obtain ⟨scn, evals, sensed⟩ := (s.scanTo c).endFault_spec c { s.channel c with
        raw := q.toNat, fresh := true, condition := .active, faultHeld := false
        ring := some ⟨x, x, x, x⟩, average := x, inRun := 0, outRun := 0 } zone
      refine ⟨_, exec_sampled h next sampled, ?_, ?_, fun d other => ⟨?_, ?_⟩, sensed.1, ?_⟩
      · exact (congrArg (fun x => x.channels.get c) scn).trans (PerChannel.get_set_self _ _ _)
      · exact (congrArg (PerChannel.get · c) evals).trans (PerChannel.get_set_self _ _ _)
      · exact (congrArg (fun x => x.channels.get d) scn).trans (PerChannel.get_set_other _ other _)
      · exact (congrArg (PerChannel.get · d) evals).trans (PerChannel.get_set_other _ other _)
      · rw [sensed.2, scn]
        rfl
  · have used : (s.channel c).condition ≠ .unused := inhibited.trans_ne (by decide)
    have faulted := ChannelRec.faulted_of_inhibited inhibited
    refine ⟨fun free x within => ?_, fun free out run => ?_, fun free out run => ?_, fun held out => ?_,
      fun held x within => ⟨fun run => ?_, fun run => ?_⟩⟩
    · have sampled := State.sample_entered (s := s.scanTo c) (ChannelRec.sample_sound_in used (faulted.trans free) within)
      exact exec_sampled h next (sampled.trans (if_neg (inhibited.trans_ne (by decide))))
    · exact exec_sampled h next (State.sample_nothing (s := s.scanTo c)
        (ChannelRec.sample_sound_out used (faulted.trans free) out (Nat.succ_lt_succ run)))
    · have confirmed := ChannelRec.sample_sound_confirm used (faulted.trans free) out (Nat.succ_le_succ run)
      rw [ChannelRec.confirmFault_inhibited (by exact inhibited)] at confirmed
      exact exec_sampled h next ((State.sample_confirmed (s := s.scanTo c) confirmed).trans
        (congrArg (State.raise · .channelFault) (if_neg (inhibited.trans_ne (by decide)))))
    · exact exec_sampled h next (State.sample_nothing (s := s.scanTo c)
        (ChannelRec.sample_faulted_out used (faulted.trans held) out))
    · exact exec_sampled h next (State.sample_nothing (s := s.scanTo c)
        (ChannelRec.sample_faulted_in used (faulted.trans held) within (Nat.succ_lt_succ run)))
    · have ended := ChannelRec.sample_faulted_end used (faulted.trans held) within (Nat.succ_le_succ run)
      rw [ChannelRec.endFault_inhibited (by exact inhibited)] at ended
      exact exec_sampled h next ((State.sample_ended (s := s.scanTo c) ended).trans
        (if_neg (inhibited.trans_ne (by decide))))
  · have stays (other : s.nextInScan ≠ some c) : exec (.channelSample c q) s = .next s.refreshPins :=
      exec_handled h (c := .channelSample c q) rfl (if_neg other)
    refine ⟨stays, fun unused => stays fun next => ?_⟩
    exact absurd unused ((State.nextInScan_iff s c).mp next).2.1

end Sys2Proof.Machine

/-! Fan events: how a fan joins the start queue, and the drive inputs, expiries and failures of one fan. -/

namespace Sys2Proof.Machine

/-! ## Fan records in the plant -/

theorem PerFan.set_set {α : Type} (t : PerFan α) (f : Fan) (x y : α) : (t.set f x).set f y = t.set f y :=
  PerFan.ext_get fun i => by simp only [PerFan.get_set]; split <;> rfl

theorem PerFan.set_get {α : Type} (t : PerFan α) (f : Fan) : t.set f (t.get f) = t :=
  PerFan.ext_get fun i => by
    rw [PerFan.get_set]
    split
    · rename_i same
      rw [same]
    · rfl

theorem Plant.setFan_setFan (p : Plant) (f : Fan) (x y : FanRec) : (p.setFan f x).setFan f y = p.setFan f y := by
  simp only [Plant.setFan, PerFan.set_set]

theorem Plant.setFan_fan_eq (p : Plant) (f : Fan) : p.setFan f (p.fan f) = p := by
  rw [Plant.setFan, Plant.fan, PerFan.set_get]

/-! ## Joining the queue (R137, R141) -/

/-- A fresh entry stands behind its class: a FIRE entry between the FIRE and the NORMAL entries, any other at the tail. -/
theorem enterQueue_fresh {x : QueueEntry} {l : List QueueEntry} (sorted : l.Pairwise fun a b => a.ahead b = true)
    (fresh : ∀ e ∈ l, e.arrival < x.arrival) :
    enterQueue x l = l.filter (fun e => e.fire || !x.fire) ++ x :: l.filter (fun e => !e.fire && x.fire) := by
  induction l with
  | nil => rfl
  | cons y ys ih =>
    obtain ⟨head, tail⟩ := List.pairwise_cons.mp sorted
    have late : ¬ x.arrival < y.arrival := (fresh y List.mem_cons_self).not_gt
    have rest := ih tail fun e mem => fresh e (List.mem_cons_of_mem _ mem)
    rw [enterQueue]
    by_cases ahead : x.fire = true ∧ y.fire = false
    · obtain ⟨fire, normal⟩ := ahead
      have normals : ∀ e ∈ ys, e.fire = false := fun e mem => by
        simpa [QueueEntry.ahead, normal, and_comm] using (Bool.eq_false_or_eq_true e.fire).symm.resolve_right fun h => by
          have := head e mem
          simp [QueueEntry.ahead, normal, h] at this
      have none : ys.filter (fun e => e.fire) = [] := List.filter_eq_nil_iff.mpr fun e mem => by simp [normals e mem]
      have all : ys.filter (fun e => !e.fire) = ys := List.filter_eq_self.mpr fun e mem => by simp [normals e mem]
      rw [if_pos (by simp [QueueEntry.ahead, fire, normal])]
      simp [fire, normal, none, all]
    · rw [if_neg (by simpa [QueueEntry.ahead, late] using ahead), rest]
      have stays : (y.fire || !x.fire) = true := by
        cases fire : y.fire
        · simpa [fire] using ahead
        · rfl
      have only : (!y.fire && x.fire) = false := by
        rw [← Bool.not_not x.fire, ← Bool.not_or, stays]
        rfl
      simp [stays, only]

theorem Plant.stagedNormal_eq (p : Plant) :
    p.stagedNormal = p.fsq.staged.any fun x => p.fsq.queue.any fun e => e.fan == x.fan && !e.fire := by
  unfold Plant.stagedNormal
  cases p.fsq.staged <;> rfl

theorem Plant.join_eq {p : Plant} (f : Fan) (sorted : p.fsq.queue.Pairwise fun a b => a.ahead b = true)
    (fresh : ∀ e ∈ p.fsq.queue, e.arrival < p.fsq.nextArrival) :
    p.join f = { p with fsq := { p.fsq with
      nextArrival := p.fsq.nextArrival + 1
      queue := p.fsq.queue.filter (fun e => e.fire || !(p.fan f).fire) ++ ⟨f, (p.fan f).fire, p.fsq.nextArrival⟩ ::
        p.fsq.queue.filter (fun e => !e.fire && (p.fan f).fire)
      staged := if (p.fan f).fire = true ∧
          p.fsq.staged.any (fun x => p.fsq.queue.any fun e => e.fan == x.fan && !e.fire) = true
        then none else p.fsq.staged } } := by
  rw [← Plant.stagedNormal_eq, ← enterQueue_fresh (x := ⟨f, (p.fan f).fire, p.fsq.nextArrival⟩) sorted fresh, Plant.join]
  by_cases preempts : (p.fan f).fire = true ∧ p.stagedNormal = true
  · rw [if_pos preempts, if_pos ((Bool.and_eq_true _ _).mpr preempts)]
    rfl
  · rw [if_neg preempts, if_neg (mt (Bool.and_eq_true _ _).mp preempts)]

/-! ## Drive inputs (R135) -/

section
variable {cfg : Settings} {f : Fan} {p : Plant}

theorem changeDriveInput_same {i : DriveInput} {b : Bool} (h : (p.fan f).level i = b) :
    changeDriveInput cfg f i b p = p := if_pos h

theorem changeDriveInput_clears {i : DriveInput} (h : (p.fan f).level i = true) :
    changeDriveInput cfg f i false p = p.setFan f ((p.fan f).setLevel i false) := by
  rw [changeDriveInput, if_neg (by rw [h]; decide)]
  cases i <;> rfl

theorem changeDriveInput_running (h : (p.fan f).running = false) : changeDriveInput cfg f .running true p =
    if (p.fan f).state = .starting then
      fanEvent cfg ((p.setFan f { p.fan f with running := true }).prove cfg f, [])
    else p.setFan f { p.fan f with running := true } := if_neg (by rw [show (p.fan f).level .running = _ from h]; decide)

theorem changeDriveInput_airflow (h : (p.fan f).airflow = false) : changeDriveInput cfg f .airflow true p =
    if (p.fan f).state = .proving then
      report cfg ((p.setFan f { p.fan f with airflow := true }).prove cfg f, [])
    else p.setFan f { p.fan f with airflow := true } := if_neg (by rw [show (p.fan f).level .airflow = _ from h]; decide)

theorem changeDriveInput_fault (h : (p.fan f).driveFault = false) : changeDriveInput cfg f .driveFault true p =
    if (p.fan f).state.inService && !(p.fan f).fireOverride then
      fanEvent cfg ((p.setFan f { p.fan f with driveFault := true }).failFan f .driveFault)
    else p.setFan f { p.fan f with driveFault := true } :=
  if_neg (by rw [show (p.fan f).level .driveFault = _ from h]; decide)

theorem Plant.prove_setFan (r : FanRec) : (p.setFan f r).prove cfg f =
    p.setFan f (if r.airflow then { r with state := .running, timer := none, attempts := 0 }
      else { r with state := .proving, timer := some cfg.timers.tProve }) := by
  rw [Plant.prove, Plant.setFan_fan_self]
  split <;> exact p.setFan_setFan f _ _

/-- An event of one fan with nothing to report. -/
theorem fanEvent_quiet (cfg : Settings) (p : Plant) : fanEvent cfg (p, []) = testQueue cfg (refreshStatus cfg p) := rfl

theorem expireIn_due {state : FanState} (h : (p.fan f).state = state) (due : (p.fan f).timer = some 0) :
    expireIn cfg state f p = if (p.fan f).state.inService then fanEvent cfg (timeoutFan p f)
      else report cfg (timeoutFan p f) := (if_pos h).trans (if_pos due)

end

/-- Settles O54: the input is recorded, and the entry test of PROVING is met at once or later. -/
theorem startsAreProved : Obligations.StartsAreProved := by
  refine ⟨fun s f h clear c among => ?_, fun s f h clear c among => ?_⟩
  · have changes := changeDriveInput_running (cfg := s.cfg) (f := f) (p := s.plant) clear
    have handles (p : Plant) (e : changeDriveInput s.cfg f .running true s.plant = p) :
        exec c s = .next (s.onPlant fun _ => p).refreshPins := by
      rw [List.mem_pair] at among
      rcases among with rfl | rfl
      exacts [exec_handled h (c := .runningFeedback f) rfl (congrArg (fun p => s.onPlant fun _ => p) e),
        exec_handled h (c := .driveInputChange f .running true) rfl (congrArg (fun p => s.onPlant fun _ => p) e)]
    refine ⟨fun starting made => handles _ ?_, fun starting unmade => handles _ ?_, fun other => handles _ ?_⟩
    · rw [changes, if_pos starting, Plant.prove_setFan, if_pos made, fanEvent_quiet]
    · rw [changes, if_pos starting, Plant.prove_setFan, if_neg (Bool.not_eq_true _ ▸ unmade), fanEvent_quiet]
    · rw [changes, if_neg other]
  · have changes := changeDriveInput_airflow (cfg := s.cfg) (f := f) (p := s.plant) clear
    have handles (p : Plant) (e : changeDriveInput s.cfg f .airflow true s.plant = p) :
        exec c s = .next (s.onPlant fun _ => p).refreshPins := by
      rw [List.mem_pair] at among
      rcases among with rfl | rfl
      exacts [exec_handled h (c := .airflowProven f) rfl (congrArg (fun p => s.onPlant fun _ => p) e),
        exec_handled h (c := .driveInputChange f .airflow true) rfl (congrArg (fun p => s.onPlant fun _ => p) e)]
    refine ⟨fun proving => handles _ ?_, fun other => handles _ ?_⟩
    · rw [changes, if_pos proving, Plant.prove_setFan, if_pos rfl]
      rfl
    · rw [changes, if_neg other]

/-- Settles O55. -/
theorem quietFanEvents : Obligations.QuietFanEvents := by
  have handles {s : State} (h : s.Plain) {f : Fan} {i : DriveInput} {b : Bool} {p : Plant}
      (e : changeDriveInput s.cfg f i b s.plant = p) :
      exec (.driveInputChange f i b) s = .next (s.onPlant fun _ => p).refreshPins :=
    exec_handled h (c := .driveInputChange f i b) rfl (congrArg (fun p => s.onPlant fun _ => p) e)
  refine ⟨fun s f i h => ⟨fun made => handles h (changeDriveInput_clears made),
    fun b same => handles h (changeDriveInput_same same), fun clear quiet => ?_⟩, fun s f h stopping due => ?_⟩
  · refine exec_handled h (c := .driveFault f) rfl (congrArg (fun p => s.onPlant fun _ => p)
      ((changeDriveInput_fault clear).trans (if_neg ?_)))
    rcases quiet with idle | override
    · simp [idle]
    · simp [override]
  · refine exec_handled h (c := .coastExpiry f) rfl (congrArg (fun p => s.onPlant fun _ => p)
      ((expireIn_due stopping due).trans ((if_neg (by rw [stopping]; decide)).trans ?_)))
    rw [timeoutFan, stopping]
    rfl

/-! ## Failures (R151 to R153) -/

section
variable {p : Plant} {f : Fan} {r : FanRec} {cause : TripCause}

theorem Plant.failFan_trips (h : r.fire = false ∨ 2 ≤ r.attempts) : (p.setFan f r).failFan f cause =
    ((p.setFan f { r.release .tripped with
      cause := cause, attempts := r.attempts + if r.fire then 1 else 0 }).raise .fanTrip, [f]) := by
  rw [Plant.failFan]
  dsimp only
  rw [Plant.setFan_fan_self]
  rcases Bool.eq_false_or_eq_true r.fire with fire | clear
  · have last : ¬ r.attempts + 1 < Config.maxAttempts := by
      rcases h with h | h
      · exact absurd (fire.symm.trans h) (by decide)
      · exact Nat.not_lt.mpr (Nat.succ_le_succ h)
    rw [if_pos fire, if_neg last, if_pos fire, Plant.setFan_setFan, Plant.trip, Plant.setFan_fan_self, Plant.setFan_setFan]
    rfl
  · have free : ¬ r.fire = true := Bool.not_eq_true _ ▸ clear
    rw [if_neg free, if_neg free, Plant.trip, Plant.setFan_fan_self, Plant.setFan_setFan]
    rfl

theorem Plant.failFan_retries (fire : r.fire = true) (early : r.attempts < 2) : (p.setFan f r).failFan f cause =
    ((p.setFan f { r.release .queued with attempts := r.attempts + 1 }).join f, []) := by
  have again : r.attempts + 1 < Config.maxAttempts := Nat.succ_lt_succ early
  rw [Plant.failFan]
  dsimp only
  rw [Plant.setFan_fan_self, if_pos fire, if_pos again, Plant.setFan_setFan, Plant.setFan_fan_self, Plant.setFan_setFan]
  rfl

end

/-- A failing fan's record as the failure finds it: the input that failed it is recorded. -/
def FanRec.failed (r : FanRec) (cause : TripCause) : FanRec :=
  { r with
    airflow := if cause = .airflowLoss then false else r.airflow
    driveFault := if cause = .driveFault then true else r.driveFault }

theorem FanRec.failed_same {r : FanRec} {cause : TripCause} (airflow : cause ≠ .airflowLoss) (fault : cause ≠ .driveFault) :
    r.failed cause = r := by
  rw [FanRec.failed, if_neg airflow, if_neg fault]

/-- What a command that fails a fan makes of the plant. -/
theorem State.Fails.runs {s : State} {c : Instr} {f : Fan} {cause : TripCause} (h : s.Plain) (fails : s.Fails c f cause) :
    (s.plant.fan f).state.inService = true ∧ exec c s = .next (s.onPlant fun p =>
      fanEvent s.cfg ((p.setFan f ((p.fan f).failed cause)).failFan f cause)).refreshPins := by
  have handles {f' : State → Plant → Plant} {p : Plant} (e : exec c s = .next (s.inService fun s => s.onPlant (f' s)))
      (handled : f' s s.plant = p) : exec c s = .next (s.onPlant fun _ => p).refreshPins :=
    exec_handled h e (congrArg (fun p => s.onPlant fun _ => p) handled)
  rcases fails with ⟨rfl, rfl, state, due⟩ | ⟨rfl, rfl, state, due⟩ | ⟨rfl, rfl, state⟩ | ⟨among, rfl, service, clear, free⟩
  · refine ⟨by rw [state]; rfl, handles (f' := fun s => expireIn s.cfg .starting f) rfl ?_⟩
    rw [expireIn_due state due, if_pos (by rw [state]; rfl), timeoutFan, state,
      FanRec.failed_same (by decide) (by decide), Plant.setFan_fan_eq]
  · refine ⟨by rw [state]; rfl, handles (f' := fun s => expireIn s.cfg .proving f) rfl ?_⟩
    rw [expireIn_due state due, if_pos (by rw [state]; rfl), timeoutFan, state,
      FanRec.failed_same (by decide) (by decide), Plant.setFan_fan_eq]
  · exact ⟨by rw [state]; rfl, handles (f' := fun s => airflowLost s.cfg f) rfl (if_pos state)⟩
  · have changed := (changeDriveInput_fault (cfg := s.cfg) clear).trans (if_pos (by rw [service, free]; rfl))
    refine ⟨service, ?_⟩
    rcases among with rfl | rfl
    · exact handles (f' := fun s => changeDriveInput s.cfg f .driveFault true) rfl changed
    · exact handles (f' := fun s => changeDriveInput s.cfg f .driveFault true) rfl changed

/-- What a failure that trips makes of a fan's record (R152). -/
def FanRec.tripped (r : FanRec) (cause : TripCause) : FanRec :=
  { r.release .tripped with cause := cause, attempts := r.attempts + if r.fire then 1 else 0 }

theorem State.Fails.trips {s : State} {c : Instr} {f : Fan} {cause : TripCause} (h : s.Plain) (fails : s.Fails c f cause)
    (last : (s.plant.fan f).fire = false ∨ 2 ≤ (s.plant.fan f).attempts) : ∃ t, exec c s = .next t ∧
      t.plant = fanEvent s.cfg ((s.plant.setFan f (((s.plant.fan f).failed cause).tripped cause)).raise .fanTrip, [f]) ∧
      t = { s with plant := t.plant, pins := t.pins } := by
  refine ⟨_, (fails.runs h).2, ?_, rfl⟩
  exact congrArg (fanEvent s.cfg) (Plant.failFan_trips (r := (s.plant.fan f).failed cause) last)

/-- Settles O56: the trip is the first move, and nothing that follows touches a TRIPPED fan. -/
theorem failuresTripTheFan : Obligations.FailuresTripTheFan := by
  intro s c f cause h queue fails last
  obtain ⟨service, -⟩ := fails.runs h
  obtain ⟨t, ran, plant, only⟩ := fails.trips h last
  refine ⟨t, ran, ?_⟩
  generalize own : ((s.plant.fan f).failed cause).tripped cause = r at plant
  have chain : FanChain s.cfg ((s.plant.setFan f r).raise .fanTrip) t.plant := plant ▸ fanEvent_chain s.cfg (_, [f])
  have ok : ((s.plant.setFan f r).raise .fanTrip).QueueOk := queue.setFan_unqueued f r
    (fun queued => by rw [queued] at service; exact absurd service (by decide)) (own ▸ (by decide : FanState.tripped ≠ .queued))
  have record : ((s.plant.setFan f r).raise .fanTrip).fan f = r := Plant.setFan_fan_self ..
  have mark := chain.mark ok (f := f) (by rw [record, ← own]; rfl)
  rw [record, ← own] at mark
  obtain ⟨state, cause', output, attempts, run⟩ := FanRec.mark_eq.mp mark
  have same := chain.same
  refine ⟨state, cause', run, output, attempts, same.events .fanTrip ?_, ?_, fun z =>
    ⟨same.claims z, same.result z, congrArg (PerZone.get · z) same.dampers⟩, same.fireOrder, same.spm, same.budget, only⟩
  · rw [Plant.raise_events, Events.has_add]
    simp
  · exact (chain.queueOk ok).not_mem (state.trans_ne (by decide : FanState.tripped ≠ .queued))

/-- What a failure that is retried makes of a fan's record (R153). -/
theorem FanRec.failed_retried (r : FanRec) (cause : TripCause) :
    { (r.failed cause).release .queued with attempts := (r.failed cause).attempts + 1 } = { r with
      state := .queued, output := 0, run := false, fireOverride := false, timer := none, attempts := r.attempts + 1
      airflow := if cause = .airflowLoss then false else r.airflow
      driveFault := if cause = .driveFault then true else r.driveFault } := rfl

theorem State.Fails.retries {s : State} {c : Instr} {f : Fan} {cause : TripCause} (h : s.Plain) (fails : s.Fails c f cause)
    (fire : (s.plant.fan f).fire = true) (early : (s.plant.fan f).attempts < 2) :
    exec c s = .next (s.onPlant fun p => testQueue s.cfg (refreshStatus s.cfg ((p.setFan f { s.plant.fan f with
      state := .queued, output := 0, run := false, fireOverride := false, timer := none
      attempts := (s.plant.fan f).attempts + 1
      airflow := if cause = .airflowLoss then false else (s.plant.fan f).airflow
      driveFault := if cause = .driveFault then true else (s.plant.fan f).driveFault }).join f))).refreshPins := by
  rw [(fails.runs h).2]
  dsimp only [State.onPlant]
  rw [Plant.failFan_retries (r := (s.plant.fan f).failed cause) fire early, fanEvent_quiet, FanRec.failed_retried]

end Sys2Proof.Machine

/-! The start queue: grants, the re-test, staging and launch. -/

namespace Sys2Proof.Machine

/-! ## Grants (R136) -/

/-- A fan's record after its grant. -/
def FanRec.granted (coast : Nat) (g : Grant) (r : FanRec) : FanRec :=
  let new := { r with target := g.target, fire := g.fire }
  match r.state with
  | .off | .stopping => if g.target = 0 then new else { new with state := .queued, timer := none }
  | .queued => if g.target = 0 then new.release .off else new
  | .starting | .proving | .running => if g.target = 0 then new.coastDown coast else new
  | .tripped | .locked => new

/-- Whether the grant takes the fan into the start queue. -/
def FanRec.joins (g : Grant) (r : FanRec) : Bool :=
  (r.state == .off || r.state == .stopping) && g.target != 0

/-- Whether the grant takes the fan out of the start queue. -/
def FanRec.leaves (g : Grant) (r : FanRec) : Bool := r.state == .queued && g.target == 0

theorem Plant.leave_eq (p : Plant) (f : Fan) : p.leave f = { p with fsq := { p.fsq with
    queue := p.fsq.queue.filter fun e => e.fan != f
    staged := if p.fsq.staged.any (fun x => x.fan == f) = true then none else p.fsq.staged } } := by
  unfold Plant.leave Plant.unstageFan
  cases staged : p.fsq.staged with
  | none => simp [staged]
  | some x =>
    by_cases own : x.fan = f
    · simp [own, Plant.unstage]
    · simp [own, staged]

theorem Plant.leave_setFan (p : Plant) (f g : Fan) (r : FanRec) : (p.leave f).setFan g r = (p.setFan g r).leave f := by
  rw [Plant.leave_eq, Plant.leave_eq]
  rfl

theorem applyGrant_eq (cfg : Settings) (p : Plant) (f : Fan) (g : Grant) : applyGrant cfg p f g =
    let q := p.setFan f ((p.fan f).granted cfg.timers.coast g)
    if (p.fan f).joins g then q.join f else if (p.fan f).leaves g then q.leave f else q := by
  unfold applyGrant FanRec.granted FanRec.joins FanRec.leaves
  dsimp only
  cases state : (p.fan f).state <;> by_cases none : g.target = 0 <;>
    simp [none, Plant.enqueue, Plant.setFan_setFan, Plant.leave_setFan]

theorem applyGrant_fan (cfg : Settings) (p : Plant) (f h : Fan) (g : Grant) : (applyGrant cfg p f g).fan h =
    if h = f then (p.fan f).granted cfg.timers.coast g else p.fan h := by
  rw [applyGrant_eq, ← Plant.setFan_fan]
  dsimp only
  split
  · simp only [Plant.fan, Plant.join_fans]
  · split
    · simp only [Plant.fan, Plant.leave_fans]
    · rfl

theorem applyGrant_still {cfg : Settings} {p : Plant} {f : Fan} {g : Grant} (joins : (p.fan f).joins g = false)
    (leaves : (p.fan f).leaves g = false) :
    applyGrant cfg p f g = p.setFan f ((p.fan f).granted cfg.timers.coast g) := by
  rw [applyGrant_eq]
  simp only [joins, leaves, if_false, Bool.false_eq_true]

/-! ## The order of the queue and the re-test (R138, R142) -/

/-- The order of the queue as far as classes and arrivals give it. -/
def QueueEntry.Before (a b : QueueEntry) : Prop :=
  (a.fire = true ∨ b.fire = false) ∧ (a.fire = b.fire → a.arrival ≤ b.arrival)

theorem QueueEntry.before_of_ahead {a b : QueueEntry} (h : a.ahead b = true) : a.Before b := by
  simp only [QueueEntry.ahead, Bool.or_eq_true, Bool.and_eq_true, beq_iff_eq, decide_eq_true_eq, Bool.not_eq_true'] at h
  rcases h with ⟨fire, normal⟩ | ⟨same, arrival⟩
  · exact ⟨.inl fire, fun same => absurd (fire.symm.trans (same.trans normal)) (by decide)⟩
  · refine ⟨?_, fun _ => arrival.le⟩
    rw [same]
    exact Bool.eq_false_or_eq_true b.fire

theorem QueueEntry.before_of_not_ahead {a b : QueueEntry} (h : ¬ a.ahead b = true) : b.Before a := by
  simp only [QueueEntry.ahead, Bool.or_eq_true, Bool.and_eq_true, beq_iff_eq, decide_eq_true_eq, Bool.not_eq_true',
    not_or, not_and, Nat.not_lt] at h
  obtain ⟨mixed, late⟩ := h
  refine ⟨?_, fun same => late same.symm⟩
  rcases Bool.eq_false_or_eq_true a.fire with fire | normal
  · exact .inl (Bool.eq_true_of_not_eq_false (mixed fire))
  · exact .inr normal

theorem QueueEntry.Before.trans {a b c : QueueEntry} (h : a.Before b) (k : b.Before c) : a.Before c := by
  obtain ⟨classes, arrivals⟩ := h
  obtain ⟨classes', arrivals'⟩ := k
  refine ⟨?_, fun same => ?_⟩
  · rcases classes with fire | normal
    · exact .inl fire
    · exact .inr (classes'.resolve_left (by rw [normal]; decide))
  · have mid : a.fire = b.fire := by
      rcases classes with fire | normal
      · rw [fire]
        rcases classes' with fire' | normal'
        · exact fire'.symm
        · exact absurd (fire.symm.trans (same.trans normal')) (by decide)
      · rw [normal]
        exact same.trans (classes'.resolve_left (by rw [normal]; decide))
    exact (arrivals mid).trans (arrivals' (mid.symm.trans same))

theorem enterQueue_before {e : QueueEntry} {l : List QueueEntry} (h : l.Pairwise QueueEntry.Before) :
    (enterQueue e l).Pairwise QueueEntry.Before := by
  induction l with
  | nil => exact List.pairwise_singleton _ _
  | cons x xs ih =>
    obtain ⟨head, tail⟩ := List.pairwise_cons.mp h
    unfold enterQueue
    split
    · rename_i ahead
      refine List.pairwise_cons.mpr ⟨fun y mem => ?_, h⟩
      rcases List.mem_cons.mp mem with rfl | mem
      · exact QueueEntry.before_of_ahead ahead
      · exact (QueueEntry.before_of_ahead ahead).trans (head y mem)
    · rename_i behind
      refine List.pairwise_cons.mpr ⟨fun y mem => ?_, ih tail⟩
      rcases List.mem_cons.mp ((enterQueue_perm e xs).mem_iff.mp mem) with rfl | mem
      · exact QueueEntry.before_of_not_ahead behind
      · exact head y mem

theorem sortQueue_before (l : List QueueEntry) : (sortQueue l).Pairwise QueueEntry.Before := by
  induction l with
  | nil => exact .nil
  | cons x xs ih => exact enterQueue_before ih

/-- The power of the fans in service, without the reservation of a staged entry (R139). -/
def drawn (cfg : Settings) (p : Plant) : Nat := (Fan.all.map fun f => if (p.fan f).state.inService then
  power (cfg.fans.rated.get f) (max (p.fan f).output (p.fan f).target) else 0).sum

theorem committed_eq (cfg : Settings) (p : Plant) : committed cfg p = drawn cfg p + p.reserved := by
  rw [committed, total_eq_sum]
  rfl

theorem committed_staged {cfg : Settings} {p : Plant} {x : Staged} (h : p.fsq.staged = some x) :
    committed cfg p = drawn cfg p + x.reservation := by rw [committed_eq, Plant.reserved, h]

theorem committed_unstaged {cfg : Settings} {p : Plant} (h : p.fsq.staged = none) : committed cfg p = drawn cfg p := by
  rw [committed_eq, Plant.reserved, h, Nat.add_zero]

theorem drawn_congr {cfg : Settings} {p q : Plant} (state : ∀ f, (q.fan f).state = (p.fan f).state)
    (output : ∀ f, (q.fan f).output = (p.fan f).output) (target : ∀ f, (q.fan f).target = (p.fan f).target) :
    drawn cfg q = drawn cfg p := by simp only [drawn, state, output, target]

/-- The staged entry after the re-test (R142): that of the head, with its reservation, while it may stand. -/
def Plant.retested (cfg : Settings) (p : Plant) : Option Staged :=
  match p.fsq.staged, p.fsq.queue with
  | none, _ => none
  | some _, [] => none
  | some x, e :: _ =>
    if e.fan = x.fan ∧ (e.fire = true ∨ drawn cfg p + reservation cfg p x.fan ≤ p.fsq.budget) then
      some { x with reservation := reservation cfg p x.fan }
    else none

theorem retest_head {cfg : Settings} {p : Plant} {x : Staged} {e : QueueEntry} {es : List QueueEntry}
    (staged : p.fsq.staged = some x) (queue : p.fsq.queue = e :: es) (head : e.fan = x.fan) :
    retest cfg p = if e.fire = true ∨ drawn cfg p + reservation cfg p x.fan ≤ p.fsq.budget then
      { p with fsq := { p.fsq with staged := some { x with reservation := reservation cfg p x.fan } } }
      else p.unstage := by
  have power : committed cfg { p with fsq := { p.fsq with
      staged := some { x with reservation := reservation cfg p x.fan } } } = drawn cfg p + reservation cfg p x.fan :=
    (committed_staged rfl).trans (congrArg (· + reservation cfg p x.fan)
      (drawn_congr (fun _ => rfl) (fun _ => rfl) fun _ => rfl))
  rw [retest, staged, queue]
  dsimp only
  rw [if_pos head, power]
  generalize drawn cfg p + reservation cfg p x.fan = n
  by_cases stands : e.fire = true ∨ n ≤ p.fsq.budget
  · rw [if_pos stands, if_neg (by simpa [or_iff_not_imp_left] using stands)]
  · rw [if_neg stands, if_pos (by simpa using stands)]

theorem retest_eq (cfg : Settings) (p : Plant) :
    retest cfg p = { p with fsq := { p.fsq with staged := p.retested cfg } } := by
  unfold Plant.retested
  rcases staged : p.fsq.staged with _ | x
  · rw [retest, staged]
    simp [← staged]
  · rcases queue : p.fsq.queue with _ | ⟨e, es⟩
    · rw [retest, staged, queue]
      rfl
    · dsimp only
      by_cases head : e.fan = x.fan
      · rw [retest_head staged queue head]
        split
        · rename_i stands
          rw [if_pos (And.intro head stands)]
        · rename_i falls
          rw [if_neg fun both => falls both.2]
          rfl
      · rw [if_neg fun both => head both.1, retest, staged, queue]
        exact (if_neg head).trans (by rw [← queue]; rfl)

/-! ## Staging (R140) -/

/-- The entry that stands staged after a queue test: that of the head while it is FIRE or fits the budget. -/
def Plant.wanted (cfg : Settings) (p : Plant) : Option Staged :=
  match p.fsq.queue with
  | [] => none
  | e :: _ => if e.fire = true ∨ drawn cfg p + reservation cfg p e.fan ≤ p.fsq.budget then
      some { fan := e.fan, reservation := reservation cfg p e.fan } else none

/-- The plant with another entry staged. -/
def Plant.stage (p : Plant) (x : Option Staged) : Plant := { p with fsq := { p.fsq with staged := x } }

theorem Plant.stage_staged (p : Plant) : p.stage p.fsq.staged = p := rfl

section
variable {cfg : Settings} {p : Plant}

theorem stageHead_staged {x : Staged} (h : p.fsq.staged = some x) : stageHead cfg p = p := by
  unfold stageHead mayStage
  rw [h]
  split <;> rfl

theorem mayStage_iff {e : QueueEntry} (staged : p.fsq.staged = none) (free : p.fsq.hold = false) :
    mayStage cfg p e = true ↔ e.fire = true ∨ drawn cfg p + reservation cfg p e.fan ≤ p.fsq.budget := by
  rw [mayStage, staged, free, committed_unstaged staged]
  simp

theorem stageHead_unstaged (staged : p.fsq.staged = none) (hold : p.fsq.hold = true → p.fsq.queue = []) :
    stageHead cfg p = p.stage (p.wanted cfg) := by
  unfold stageHead Plant.wanted
  rcases queue : p.fsq.queue with _ | ⟨e, es⟩
  · exact (congrArg p.stage staged.symm).symm ▸ p.stage_staged.symm
  · have free : p.fsq.hold = false := Bool.eq_false_iff.mpr fun held => by simp [hold held] at queue
    by_cases fits : e.fire = true ∨ drawn cfg p + reservation cfg p e.fan ≤ p.fsq.budget
    · exact (if_pos ((mayStage_iff staged free).mpr fits)).trans (congrArg p.stage (if_pos fits).symm)
    · exact (if_neg (mt (mayStage_iff staged free).mp fits)).trans
        ((p.stage_staged.symm.trans (congrArg p.stage staged)).trans (congrArg p.stage (if_neg fits).symm))

theorem stageHead_only (cfg : Settings) (p : Plant) : ∃ x, stageHead cfg p = p.stage x := by
  unfold stageHead
  split
  · exact ⟨_, p.stage_staged.symm⟩
  · split
    exacts [⟨_, rfl⟩, ⟨_, p.stage_staged.symm⟩]

/-! ## Launch (R144 to R146) -/

/-- A fan's record after its launch and the tests of its start, while no failure meets it. -/
def FanRec.started (cfg : Settings) (f : Fan) (r : FanRec) : FanRec :=
  let new := r.launched cfg.timers.tRun (cfg.fanMin f)
  if r.running = false then new
  else if r.airflow then { new with state := .running, timer := none, attempts := 0 }
  else { new with state := .proving, timer := some cfg.timers.tProve }

/-- The plant after the launch of a fan that no failure meets. -/
def Plant.launched (cfg : Settings) (p : Plant) (f : Fan) : Plant :=
  Plant.setFan { p.leave f with fsq := { (p.leave f).fsq with spacing := some cfg.timers.spacing } } f
    ((p.fan f).started cfg f)

/-- A fan meets no drive fault at its launch: its input is clear, or it starts under fire override. -/
def FanRec.Sound (r : FanRec) : Prop := r.driveFault = false ∨ r.fire = true

theorem launch_sound {f : Fan} (sound : (p.fan f).Sound) : launch cfg p f = (p.launched cfg f, []) := by
  have fan : (p.leave f).fan f = p.fan f := congrArg (PerFan.get · f) (p.leave_fans f)
  have fault : ((p.fan f).driveFault && !(p.fan f).fire) = false := by
    rcases sound with clear | fire
    · simp [clear]
    · simp [fire]
  unfold launch Plant.launched
  dsimp only
  rw [show (Plant.mk _ _ _ _ { (p.leave f).fsq with spacing := some cfg.timers.spacing } _ _).fan f = p.fan f from fan]
  generalize { p.leave f with fsq := { (p.leave f).fsq with spacing := some cfg.timers.spacing } } = q
  unfold Plant.startTests
  rw [Plant.setFan_fan_self, Plant.prove_setFan]
  unfold FanRec.started
  dsimp only [FanRec.launched]
  rw [fault, if_neg (by decide)]
  cases (p.fan f).running <;> rfl

theorem mayLaunch_iff : mayLaunch p = true ↔ p.fsq.spacing = none ∧ ∀ f, (p.fan f).state ≠ .starting := by
  simp [mayLaunch]

theorem queueTest_rests (h : (stageHead cfg p).fsq.staged = none ∨ mayLaunch p = false) :
    queueTest cfg p = (stageHead cfg p, []) := by
  obtain ⟨x, only⟩ := stageHead_only cfg p
  unfold queueTest
  dsimp only
  rcases staged : (stageHead cfg p).fsq.staged with _ | y
  · rfl
  · have waits : mayLaunch (stageHead cfg p) = false := by
      rw [only]
      exact h.resolve_left (by rw [staged]; simp)
    dsimp only
    rw [if_neg (by rw [waits]; decide)]

theorem queueTest_launches {x : Staged} (staged : (stageHead cfg p).fsq.staged = some x) (may : mayLaunch p = true)
    (sound : (p.fan x.fan).Sound) :
    queueTest cfg p = (stageHead cfg ((stageHead cfg p).launched cfg x.fan), []) := by
  obtain ⟨y, only⟩ := stageHead_only cfg p
  have goes : mayLaunch (stageHead cfg p) = true := by
    rw [only]
    exact may
  have sound' : ((stageHead cfg p).fan x.fan).Sound := by
    rw [only]
    exact sound
  unfold queueTest
  dsimp only
  rw [staged]
  dsimp only
  rw [if_pos goes, launch_sound sound']

theorem Plant.launched_head {e : QueueEntry} {es : List QueueEntry} {x : Staged} (queue : p.fsq.queue = e :: es)
    (nodup : (p.fsq.queue.map QueueEntry.fan).Nodup) (staged : p.fsq.staged = some x) (head : x.fan = e.fan) :
    p.launched cfg e.fan = { p with fsq := { p.fsq with
      fans := p.fsq.fans.set e.fan ((p.fan e.fan).started cfg e.fan), queue := es, staged := none
      spacing := some cfg.timers.spacing } } := by
  rw [queue, List.map_cons, List.nodup_cons] at nodup
  have rest : (e :: es).filter (fun a => a.fan != e.fan) = es := by
    rw [List.filter_cons_of_neg (by simp), List.filter_eq_self]
    intro a mem
    rw [bne_iff_ne]
    exact fun same => nodup.1 (List.mem_map.mpr ⟨a, mem, same⟩)
  have gone : (if p.fsq.staged.any (fun y => y.fan == e.fan) = true then none else p.fsq.staged) = none := by
    rw [staged]
    simp [head]
  rw [Plant.launched, Plant.leave_eq]
  dsimp only
  rw [gone, queue, rest]
  rfl

/-- What a queue test of a queue whose head nothing keeps back leaves: the head is launched, and the new head staged if it
may be. -/
theorem queueTest_head {e : QueueEntry} {es : List QueueEntry} (ok : p.QueueOk) (queue : p.fsq.queue = e :: es)
    (spacing : p.fsq.spacing = none) (hold : p.fsq.hold = false) (idle : ∀ f, (p.fan f).state ≠ .starting)
    (may : p.fsq.staged ≠ none ∨ e.fire = true ∨ drawn cfg p + reservation cfg p e.fan ≤ p.fsq.budget)
    (sound : (p.fan e.fan).Sound) :
    queueTest cfg p = (stageHead cfg { p with fsq := { p.fsq with
      fans := p.fsq.fans.set e.fan ((p.fan e.fan).started cfg e.fan), queue := es, staged := none
      spacing := some cfg.timers.spacing } }, []) := by
  obtain ⟨-, nodup, -, -, -, head⟩ := ok
  have launches : mayLaunch p = true := mayLaunch_iff.mpr ⟨spacing, idle⟩
  rcases staged : p.fsq.staged with _ | x
  · have fits := may.resolve_left (fun some => some staged)
    have stages : stageHead cfg p = p.stage (some ⟨e.fan, reservation cfg p e.fan⟩) := by
      rw [stageHead_unstaged staged (fun held => absurd held (by rw [hold]; decide)), Plant.wanted, queue]
      exact congrArg p.stage (if_pos fits)
    rw [queueTest_launches (x := ⟨e.fan, reservation cfg p e.fan⟩) (congrArg (fun q => q.fsq.staged) stages) launches sound,
      stages]
    exact congrArg (fun q => (stageHead cfg q, ([] : List Fan)))
      (Plant.launched_head (p := p.stage (some ⟨e.fan, reservation cfg p e.fan⟩)) queue nodup rfl rfl)
  · have own : x.fan = e.fan := by
      have first := head x staged
      rw [queue] at first
      exact (Option.some.inj first).symm
    rw [queueTest_launches (x := x) ((stageHead_staged staged).symm ▸ staged) launches (own.symm ▸ sound),
      stageHead_staged staged, own, Plant.launched_head queue nodup staged own]

theorem FanRec.started_still {f : Fan} {r : FanRec} (h : r.running = false) : r.started cfg f = { r with
    state := .starting, output := cfg.fanMin f, run := true, fireOverride := r.fire, timer := some cfg.timers.tRun } :=
  if_pos h

/-- What O53 says of a queue test that launches the head of the queue. -/
theorem testQueue_head {e : QueueEntry} {es : List QueueEntry} (ok : p.QueueOk) (queue : p.fsq.queue = e :: es)
    (spacing : p.fsq.spacing = none) (hold : p.fsq.hold = false) (idle : ∀ f, (p.fan f).state ≠ .starting)
    (may : p.fsq.staged ≠ none ∨ e.fire = true ∨ drawn cfg p + reservation cfg p e.fan ≤ p.fsq.budget)
    (still : (p.fan e.fan).running = false) (sound : (p.fan e.fan).Sound) :
    let t := testQueue cfg p
    (∀ f, t.fan f = if f = e.fan then { p.fan e.fan with
        state := .starting, output := cfg.fanMin e.fan, run := true, fireOverride := (p.fan e.fan).fire
        timer := some cfg.timers.tRun } else p.fan f) ∧
      t.fsq.queue = es ∧ t.fsq.spacing = some cfg.timers.spacing ∧ t.gal = p.gal := by
  dsimp only
  rw [testQueue, queueTest_head ok queue spacing hold idle may sound, FanRec.started_still still]
  generalize made : ({ p with fsq := { p.fsq with
      fans := p.fsq.fans.set e.fan { p.fan e.fan with
        state := .starting, output := cfg.fanMin e.fan, run := true, fireOverride := (p.fan e.fan).fire
        timer := some cfg.timers.tRun }
      queue := es, staged := none, spacing := some cfg.timers.spacing } } : Plant) = q
  obtain ⟨x, only⟩ := stageHead_only cfg q
  have reported : report cfg (stageHead cfg q, []) = refreshStatus cfg (q.stage x) := by
    rw [only]
    rfl
  rw [reported, refreshStatus_gal, ← made]
  simp only [Plant.fan, refreshStatus_fsq]
  exact ⟨fun f => PerFan.get_set .., rfl, rfl, rfl⟩

end

/-! ## The ramp period's tick -/

@[simp] theorem Plant.tick_fan (p : Plant) (f : Fan) :
    p.tick.fan f = { p.fan f with timer := tickTimer (p.fan f).timer } := PerFan.get_build ..

theorem Plant.tick_gal (p : Plant) : p.tick.gal = p.gal := rfl

/-- The plant at the end of a ramp period, before the queue test: the fan records have moved, and the spacing. -/
theorem Plant.ramped_eq (p : Plant) (cfg : Settings) : ramp cfg p.tick = { p.tick with fsq := { p.fsq with
    fans := (ramp cfg p.tick).fsq.fans, spacing := tickSpacing p.fsq.spacing } } := by
  rw [ramp_eq]
  rfl

theorem Plant.QueueOk.ticked {p : Plant} (h : p.QueueOk) (cfg : Settings) : (ramp cfg p.tick).QueueOk := by
  rw [ramp_eq]
  refine h.of_same rfl rfl h.2.2.2.2.2 fun f => ?_
  simp [Plant.fan, Plant.tick]

theorem reclass_drawn (cfg : Settings) (p : Plant) : drawn cfg (reclass p) = drawn cfg p :=
  drawn_congr (fun _ => rfl) (fun _ => rfl) fun _ => rfl

section
variable {cfg : Settings} {p : Plant} {x : Staged}

theorem retested_none (h : p.fsq.staged = none) : p.retested cfg = none := by
  unfold Plant.retested
  rw [h]

theorem retested_head {e : QueueEntry} {es : List QueueEntry} (staged : p.fsq.staged = some x)
    (queue : p.fsq.queue = e :: es) : p.retested cfg =
      if e.fan = x.fan ∧ (e.fire = true ∨ drawn cfg p + reservation cfg p x.fan ≤ p.fsq.budget) then
        some { x with reservation := reservation cfg p x.fan } else none := by
  unfold Plant.retested
  rw [staged, queue]

theorem retested_ahead (staged : p.fsq.staged = some x)
    (head : ∀ e es, p.fsq.queue = e :: es → e.fan ≠ x.fan) : p.retested cfg = none := by
  rcases queue : p.fsq.queue with _ | ⟨e, es⟩
  · unfold Plant.retested
    rw [staged, queue]
  · rw [retested_head staged queue, if_neg fun both => head e es queue both.1]

end

/-- What O53 says of a grant, by the state of the fan. -/
theorem applyGrant_spec (cfg : Settings) (p : Plant) (f : Fan) (g : Grant) :
    let t := applyGrant cfg p f g
    let r : FanRec := { p.fan f with target := g.target, fire := g.fire }
    let still (q : Plant) : Prop := q = { p with fsq := { p.fsq with fans := q.fsq.fans } }
    (r.state = .tripped ∨ r.state = .locked → t.fan f = r ∧ still t) ∧
    (r.state = .off ∨ r.state = .stopping → g.target = 0 → t.fan f = r ∧ still t) ∧
    (r.state = .off ∨ r.state = .stopping → 0 < g.target →
      (p.fsq.queue.Pairwise fun a b => a.ahead b = true) → (∀ e ∈ p.fsq.queue, e.arrival < p.fsq.nextArrival) →
      t.fan f = { r with state := .queued, timer := none } ∧ t = { p with fsq := { p.fsq with
        fans := t.fsq.fans, nextArrival := p.fsq.nextArrival + 1
        queue := p.fsq.queue.filter (fun e => e.fire || !g.fire) ++ ⟨f, g.fire, p.fsq.nextArrival⟩ ::
          p.fsq.queue.filter (fun e => !e.fire && g.fire)
        staged := if g.fire = true ∧ p.fsq.staged.any (fun x => p.fsq.queue.any fun e => e.fan == x.fan && !e.fire) = true
          then none else p.fsq.staged } }) ∧
    (r.state = .queued → 0 < g.target → t.fan f = r ∧ still t) ∧
    (r.state = .queued → g.target = 0 → t.fan f = r.release .off ∧
      t = { p with fsq := { p.fsq with
        fans := t.fsq.fans, queue := p.fsq.queue.filter fun e => e.fan != f
        staged := if p.fsq.staged.any (fun x => x.fan == f) = true then none else p.fsq.staged } }) ∧
    (r.state = .starting ∨ r.state = .proving ∨ r.state = .running → still t ∧ t.fan f =
      if g.target = 0 then r.coastDown cfg.timers.coast else r) := by
  dsimp only
  have own := (applyGrant_fan cfg p f f g).trans (if_pos rfl)
  have still (joins : (p.fan f).joins g = false) (leaves : (p.fan f).leaves g = false) : applyGrant cfg p f g =
      { p with fsq := { p.fsq with fans := (applyGrant cfg p f g).fsq.fans } } := by
    rw [applyGrant_still joins leaves]
    rfl
  rw [own]
  refine ⟨fun out => ?_, fun rest none => ?_, fun rest some sorted fresh => ?_, fun queued some => ?_,
    fun queued none => ?_, fun service => ?_⟩
  · refine ⟨?_, still ?_ ?_⟩ <;> rcases out with state | state <;> simp [FanRec.granted, FanRec.joins, FanRec.leaves, state]
  · refine ⟨?_, still ?_ ?_⟩ <;> rcases rest with state | state <;>
      simp [FanRec.granted, FanRec.joins, FanRec.leaves, state, none]
  · have joins : (p.fan f).joins g = true := by
      rcases rest with state | state <;> simp [FanRec.joins, state, some.ne']
    have record : (p.fan f).granted cfg.timers.coast g =
        { p.fan f with target := g.target, fire := g.fire, state := .queued, timer := none } := by
      rcases rest with state | state <;> simp [FanRec.granted, state, some.ne']
    have made : applyGrant cfg p f g = (p.setFan f ((p.fan f).granted cfg.timers.coast g)).join f := by
      rw [applyGrant_eq]
      exact if_pos joins
    refine ⟨record, ?_⟩
    rw [made, Plant.join_eq (p := p.setFan f _) f sorted fresh, Plant.setFan_fan_self, record]
    rfl
  · refine ⟨?_, still ?_ ?_⟩ <;> simp [FanRec.granted, FanRec.joins, FanRec.leaves, queued, some.ne']
  · have made : applyGrant cfg p f g = (p.setFan f ((p.fan f).granted cfg.timers.coast g)).leave f := by
      rw [applyGrant_eq]
      simp [FanRec.joins, FanRec.leaves, queued, none]
    refine ⟨by simp [FanRec.granted, queued, none], ?_⟩
    rw [made, Plant.leave_eq]
    rfl
  · refine ⟨still ?_ ?_, ?_⟩ <;> rcases service with state | state | state <;>
      simp [FanRec.granted, FanRec.joins, FanRec.leaves, state]

/-- Settles O53. -/
theorem queueHeadIsLaunched : Obligations.QueueHeadIsLaunched := by
  refine ⟨fun s e es h ok queue spacing hold idle may still sound => ?_,
    fun s e es h ok queue spacing hold idle may still sound => ?_, fun cfg p f g =>
      ⟨fun h other => (applyGrant_fan cfg p f h g).trans (if_neg other), applyGrant_spec cfg p f g⟩, fun cfg p => ?_⟩
  · have fits : s.plant.fsq.staged ≠ none ∨ e.fire = true ∨
        drawn s.cfg s.plant + reservation s.cfg s.plant e.fan ≤ s.plant.fsq.budget := by
      refine may.imp_right (Or.imp_right fun fits => le_trans ?_ fits)
      rw [committed_eq]
      exact Nat.add_le_add_right (Nat.le_add_right _ _) _
    obtain ⟨fans, rest, spaced, gal⟩ := testQueue_head (cfg := s.cfg) ok queue spacing hold idle fits still sound
    have same := (testQueue_chain s.cfg s.plant).same
    obtain ⟨t, ran, plant, only⟩ : ∃ t, exec .startSpacingExpiry s = .next t ∧ t.plant = testQueue s.cfg s.plant ∧
        t = { s with plant := t.plant, pins := t.pins } :=
      ⟨_, exec_handled h (c := .startSpacingExpiry) rfl (if_pos spacing), rfl, rfl⟩
    rw [← plant] at fans rest spaced gal same
    exact ⟨t, ran, (fans _).trans (if_pos rfl), fun f other => (fans f).trans (if_neg other), rest, spaced, same, gal, only⟩
  · have fan (f : Fan) := ramp_fan s.cfg s.plant.tick f
    simp only [Plant.tick_fan] at fan
    have only := s.plant.ramped_eq s.cfg
    have ticked := ok.ticked s.cfg
    obtain ⟨t, ran, plant⟩ : ∃ t, exec .rampPeriodEnd s = .next t ∧ t.plant = testQueue s.cfg (ramp s.cfg s.plant.tick) :=
      ⟨_, exec_handled h (c := .rampPeriodEnd) (f := State.rampPeriod) rfl rfl, rfl⟩
    generalize ramp s.cfg s.plant.tick = p at fan only ticked plant
    have spaced : p.fsq.spacing = none := by
      rw [only]
      rcases spacing with none | ⟨n, least, some⟩
      · exact congrArg tickSpacing none
      · exact (congrArg tickSpacing some).trans (if_pos least)
    obtain ⟨fans, rest, spacing', gal⟩ := testQueue_head (cfg := s.cfg) (p := p) ticked (by rw [only]; exact queue) spaced
      (by rw [only]; exact hold) (fun f => by rw [fan]; exact idle f)
      (by rw [only]; exact may.imp_right .inl) (by rw [fan]; exact still)
      (by rw [fan]; exact sound)
    rw [← plant] at fans rest spacing' gal
    refine ⟨t, ran, ?_, fun f other => ?_, rest, spacing', gal.trans (by rw [only]; rfl)⟩
    · rw [fans, if_pos rfl, fan]
    · have own := (fans f).trans ((if_neg other).trans (fan f))
      rw [own]
  · have perm := sortQueue_perm (p.fsq.queue.map fun e => { e with fire := (p.fan e.fan).fire })
    have sorted := sortQueue_before (p.fsq.queue.map fun e => { e with fire := (p.fan e.fan).fire })
    have drawn_same := reclass_drawn cfg p
    rw [retest_eq]
    refine ⟨rfl, perm, sorted, fun none => retested_none none, fun x staged => ⟨fun e es queue head => ⟨fun fits => ?_,
      fun normal short => ?_⟩, fun ahead => retested_ahead staged ahead⟩⟩
    · refine (retested_head (p := reclass p) staged queue).trans (if_pos ⟨head, fits.imp_right fun fits => ?_⟩)
      rw [drawn_same]
      exact fits
    · refine (retested_head (p := reclass p) staged queue).trans (if_neg fun both => ?_)
      rw [drawn_same] at both
      exact (both.2.resolve_left (by rw [normal]; decide)).not_gt short

end Sys2Proof.Machine

/-! An allocation pass in which no fan trips: the grants, the queue, the fire-override outputs and the queue test. -/

namespace Sys2Proof.Machine

/-! ## The grants of a pass, in ascending fan number (R145) -/

theorem Fan.all_ascending : Fan.all.Pairwise fun a b => a.number < b.number := by decide

/-- The plant after the grants of a pass to some fans. -/
def grantAll (cfg : Settings) (grants : PerFan Grant) (l : List Fan) (p : Plant) : Plant :=
  l.foldl (fun q f => applyGrant cfg q f (grants.get f)) p

theorem grantAll_fan (cfg : Settings) (grants : PerFan Grant) {l : List Fan} (nodup : l.Nodup) (p : Plant) (f : Fan) :
    (grantAll cfg grants l p).fan f =
      if f ∈ l then (p.fan f).granted cfg.timers.coast (grants.get f) else p.fan f :=
  foldl_each (view := fun q f => q.fan f) (goal := fun q f => (q.fan f).granted cfg.timers.coast (grants.get f))
    (fun q f => (applyGrant_fan cfg q f f _).trans (if_pos rfl))
    (fun q f h other => (applyGrant_fan cfg q f h _).trans (if_neg other))
    (fun q f h other => congrArg (FanRec.granted _ _) ((applyGrant_fan cfg q f h _).trans (if_neg other))) nodup p f

section
variable {coast : Nat} {g : Grant} {r : FanRec}

@[simp] theorem FanRec.granted_fire : (r.granted coast g).fire = g.fire := by
  cases state : r.state <;> by_cases none : g.target = 0 <;>
    simp [FanRec.granted, state, none, FanRec.release, FanRec.coastDown]

@[simp] theorem FanRec.granted_target : (r.granted coast g).target = g.target := by
  cases state : r.state <;> by_cases none : g.target = 0 <;>
    simp [FanRec.granted, state, none, FanRec.release, FanRec.coastDown]

@[simp] theorem FanRec.granted_driveFault : (r.granted coast g).driveFault = r.driveFault := by
  cases state : r.state <;> by_cases none : g.target = 0 <;>
    simp [FanRec.granted, state, none, FanRec.release, FanRec.coastDown]

/-- A grant of 0 leaves no fan in service and none queued. -/
theorem FanRec.granted_none (none : g.target = 0) :
    (r.granted coast g).state.inService = false ∧ (r.granted coast g).state ≠ .queued := by
  cases state : r.state <;> simp [FanRec.granted, state, none, FanRec.release, FanRec.coastDown, FanState.inService]

/-- A fan that its grant leaves in service was in service, and its run command and output are as they were. -/
theorem FanRec.granted_inService (service : (r.granted coast g).state.inService = true) :
    r.granted coast g = { r with target := g.target, fire := g.fire } := by
  cases state : r.state <;> by_cases none : g.target = 0 <;>
    simp_all [FanRec.granted, FanRec.release, FanRec.coastDown, FanState.inService]

end

theorem applyGrant_only (cfg : Settings) (p : Plant) (f : Fan) (g : Grant) : applyGrant cfg p f g =
    { p with fsq := { p.fsq with
      fans := (applyGrant cfg p f g).fsq.fans, queue := (applyGrant cfg p f g).fsq.queue
      nextArrival := (applyGrant cfg p f g).fsq.nextArrival, staged := (applyGrant cfg p f g).fsq.staged } } := by
  have join (q : Plant) : q.join f = { q with fsq := { q.fsq with
      fans := (q.join f).fsq.fans, queue := (q.join f).fsq.queue
      nextArrival := (q.join f).fsq.nextArrival, staged := (q.join f).fsq.staged } } := by
    unfold Plant.join
    dsimp only
    split <;> rfl
  have made := applyGrant_eq cfg p f g
  dsimp only at made
  generalize applyGrant cfg p f g = t at made ⊢
  split at made
  · rw [made, join]
    rfl
  · split at made
    · rw [made, Plant.leave_eq]
      rfl
    · rw [made]
      rfl

/-- What a grant does to the queue: it brings in the fan's entry, takes it out, or neither. -/
theorem applyGrant_queue (cfg : Settings) (p : Plant) (f : Fan) (g : Grant) :
    (∀ e ∈ (applyGrant cfg p f g).fsq.queue, e ∈ p.fsq.queue ∨
        (p.fan f).joins g = true ∧ e = ⟨f, g.fire, p.fsq.nextArrival⟩) ∧
      (applyGrant cfg p f g).fsq.nextArrival = p.fsq.nextArrival + (if (p.fan f).joins g then 1 else 0) := by
  rw [applyGrant_eq]
  dsimp only
  split
  · rename_i joins
    refine ⟨fun e mem => ?_, Plant.join_nextArrival _ _⟩
    rw [Plant.join_queue, Plant.setFan_fan_self] at mem
    rw [FanRec.granted_fire] at mem
    exact (List.mem_cons.mp ((enterQueue_perm _ _).mem_iff.mp mem)).symm.imp_right fun own => ⟨joins, own⟩
  · split
    · refine ⟨fun e mem => .inl ?_, Plant.leave_nextArrival _ _⟩
      rw [Plant.leave_queue] at mem
      exact (List.mem_filter.mp mem).1
    · exact ⟨fun e mem => .inl mem, rfl⟩

/-- The queue `q` of a plant that came of `p` by grants to the fans `done`: every entry stood there before, or its fan was
not queued and joined on the way, and the new entries arrived in ascending fan number. -/
structure Plant.Joined (p q : Plant) (done : List Fan) : Prop where
  entry : ∀ e ∈ q.fsq.queue, (∃ o ∈ p.fsq.queue, o.fan = e.fan ∧ o.arrival = e.arrival) ∨
    (p.fan e.fan).state ≠ .queued ∧ p.fsq.nextArrival ≤ e.arrival ∧ e.arrival < q.fsq.nextArrival ∧ e.fan ∈ done
  order : ∀ a ∈ q.fsq.queue, ∀ b ∈ q.fsq.queue, p.fsq.nextArrival ≤ a.arrival → p.fsq.nextArrival ≤ b.arrival →
    a.fan.number < b.fan.number → a.arrival < b.arrival
  next : p.fsq.nextArrival ≤ q.fsq.nextArrival
  others : ∀ f, f ∉ done → q.fan f = p.fan f

theorem Plant.Joined.refl {p : Plant} (ok : p.QueueOk) : p.Joined p [] where
  entry e mem := .inl ⟨e, mem, rfl, rfl⟩
  order a mem := fun _ _ late => absurd (ok.1 a mem).2 late.not_gt
  next := le_rfl
  others _ _ := rfl

theorem Plant.Joined.grant {p q : Plant} {done : List Fan} (h : p.Joined q done) (ok : p.QueueOk) (cfg : Settings) {f : Fan}
    (g : Grant) (last : ∀ d ∈ done, d.number < f.number) : p.Joined (applyGrant cfg q f g) (done ++ [f]) := by
  obtain ⟨queue, next⟩ := applyGrant_queue cfg q f g
  have fresh : f ∉ done := fun mem => Nat.lt_irrefl _ (last f mem)
  have grows : q.fsq.nextArrival ≤ (applyGrant cfg q f g).fsq.nextArrival := next ▸ Nat.le_add_right _ _
  have arrives (joins : (q.fan f).joins g = true) : (applyGrant cfg q f g).fsq.nextArrival = q.fsq.nextArrival + 1 := by
    rw [next, if_pos joins]
  have early {e : QueueEntry} (mem : e ∈ q.fsq.queue) : e.arrival < q.fsq.nextArrival := by
    rcases h.entry e mem with ⟨o, old, -, same⟩ | ⟨-, -, early, -⟩
    · exact same ▸ ((ok.1 o old).2.trans_le h.next)
    · exact early
  refine ⟨fun e mem => ?_, fun a memA b memB newA newB less => ?_, h.next.trans grows, fun d other => ?_⟩
  · rcases queue e mem with old | ⟨joins, rfl⟩
    · refine (h.entry e old).imp_right fun ⟨state, new, early, within⟩ => ⟨state, new, early.trans_le grows, ?_⟩
      exact List.mem_append_left _ within
    · refine .inr ⟨fun queued => ?_, h.next, arrives joins ▸ Nat.lt_succ_self _, by simp⟩
      have state : (q.fan f).state = .queued := (congrArg FanRec.state (h.others f fresh)).trans queued
      simp [FanRec.joins, state] at joins
  · rcases queue a memA with oldA | ⟨-, rfl⟩ <;> rcases queue b memB with oldB | ⟨-, rfl⟩
    · exact h.order a oldA b oldB newA newB less
    · exact early oldA
    · rcases h.entry b oldB with ⟨o, old, -, same⟩ | ⟨-, -, -, within⟩
      · exact absurd (same ▸ (ok.1 o old).2) newB.not_gt
      · exact absurd less (last b.fan within).not_gt
    · exact absurd less (Nat.lt_irrefl _)
  · simp only [List.mem_append, List.mem_singleton, not_or] at other
    exact ((applyGrant_fan cfg q f d g).trans (if_neg other.2)).trans (h.others d other.1)

theorem Plant.Joined.grants {p : Plant} (ok : p.QueueOk) (cfg : Settings) (grants : PerFan Grant) (l : List Fan) {q : Plant}
    {done : List Fan} (ascending : (done ++ l).Pairwise fun a b => a.number < b.number) (h : p.Joined q done) :
    p.Joined (grantAll cfg grants l q) (done ++ l) := by
  induction l generalizing q done with
  | nil => rwa [List.append_nil]
  | cons f fs ih =>
    have last : ∀ d ∈ done, d.number < f.number := fun d mem =>
      (List.pairwise_append.mp ascending).2.2 d mem f List.mem_cons_self
    have step := ih (q := applyGrant cfg q f (grants.get f)) (done := done ++ [f]) (by simpa using ascending)
      (h.grant ok cfg _ last)
    rw [List.append_cons]
    exact step

/-- What the grants of a pass leave alone. -/
theorem grantAll_only (cfg : Settings) (grants : PerFan Grant) (l : List Fan) (p : Plant) : grantAll cfg grants l p =
    { p with fsq := { p.fsq with
      fans := (grantAll cfg grants l p).fsq.fans, queue := (grantAll cfg grants l p).fsq.queue
      nextArrival := (grantAll cfg grants l p).fsq.nextArrival, staged := (grantAll cfg grants l p).fsq.staged } } := by
  induction l generalizing p with
  | nil => rfl
  | cons f fs ih =>
    have step := ih (applyGrant cfg p f (grants.get f))
    have own := applyGrant_only cfg p f (grants.get f)
    rw [show grantAll cfg grants (f :: fs) p = grantAll cfg grants fs (applyGrant cfg p f (grants.get f)) from rfl]
    generalize grantAll cfg grants fs (applyGrant cfg p f (grants.get f)) = t at step ⊢
    rw [step]
    generalize applyGrant cfg p f (grants.get f) = u at own ⊢
    rw [own]

/-! ## The fire-override outputs (R154) -/

/-- A fan's record with its fire-override output set by its run command and its fire flag. -/
def FanRec.overridden (r : FanRec) : FanRec := { r with fireOverride := r.run && r.fire }

/-- A fire-override output that clears uncovers a drive fault of the fan in service. -/
def FanRec.uncovered (r : FanRec) : Bool :=
  r.fireOverride && !(r.run && r.fire) && r.state.inService && r.driveFault

theorem setOverride_covered {x : Reported} {f : Fan} (h : (x.1.fan f).uncovered = false) :
    setOverride x f = (x.1.setFan f (x.1.fan f).overridden, x.2) := if_neg (Bool.not_eq_true _ ▸ h)

theorem setOverrides_covered {l : List Fan} (nodup : l.Nodup) {x : Reported} (h : ∀ f ∈ l, (x.1.fan f).uncovered = false) :
    ∃ fans, l.foldl setOverride x = ({ x.1 with fsq := { x.1.fsq with fans := fans } }, x.2) ∧
      ∀ f, fans.get f = if f ∈ l then (x.1.fan f).overridden else x.1.fan f := by
  induction l generalizing x with
  | nil => exact ⟨x.1.fsq.fans, rfl, fun _ => rfl⟩
  | cons g gs ih =>
    obtain ⟨fresh, nodup⟩ := List.nodup_cons.mp nodup
    have own := setOverride_covered (h g List.mem_cons_self)
    have apart {f : Fan} (mem : f ∈ gs) : (x.1.setFan g (x.1.fan g).overridden).fan f = x.1.fan f :=
      Plant.setFan_fan_other _ (by rintro rfl; exact fresh mem) _
    obtain ⟨fans, made, records⟩ := ih nodup (x := (x.1.setFan g (x.1.fan g).overridden, x.2)) fun f mem => by
      dsimp only
      rw [apart mem]
      exact h f (List.mem_cons_of_mem _ mem)
    refine ⟨fans, by rw [List.foldl_cons, own, made]; rfl, fun f => ?_⟩
    rw [records]
    by_cases mem : f ∈ gs
    · rw [if_pos mem, if_pos (List.mem_cons_of_mem _ mem), apart mem]
    · rw [if_neg mem, Plant.setFan_fan]
      by_cases same : f = g
      · rw [if_pos same, if_pos (same ▸ List.mem_cons_self), same]
      · rw [if_neg same, if_neg (by simp [same, mem])]

/-! ## A pass that finds no failure -/

/-- The plant with FSQ's budget taken over from GAL (R145). -/
def Plant.budgeted (p : Plant) : Plant := { p with fsq := { p.fsq with budget := p.gal.budget } }

/-- The plant that a pass hands on to the fans: its outcome recorded, and B taken over. -/
def Plant.recorded (cfg : Settings) (p : Plant) : Plant := (recordPass (allocate cfg p) p).budgeted

/-- A fan's record after the grants and the outputs of a pass that finds no failure. -/
def Plant.afterPass (cfg : Settings) (p : Plant) (f : Fan) : FanRec :=
  ((p.fan f).granted cfg.timers.coast ((allocate cfg p).grants.get f)).overridden

/-- What stands in the plant `m` after the grants, the classes, the re-test and the outputs of a pass of `p` that finds no
failure, before its queue test. -/
structure Plant.Passed (cfg : Settings) (p m : Plant) : Prop where
  fan : ∀ f, m.fan f = p.afterPass cfg f
  ok : m.QueueOk
  joined : ∀ e ∈ m.fsq.queue, e.fire = (m.fan e.fan).fire ∧
    ((∃ o ∈ p.fsq.queue, o.fan = e.fan ∧ o.arrival = e.arrival) ∨
      (p.fan e.fan).state ≠ .queued ∧ p.fsq.nextArrival ≤ e.arrival)
  order : ∀ a ∈ m.fsq.queue, ∀ b ∈ m.fsq.queue, p.fsq.nextArrival ≤ a.arrival → p.fsq.nextArrival ≤ b.arrival →
    a.fan.number < b.fan.number → a.arrival < b.arrival
  staged : m.fsq.staged = none ∨ m.fsq.staged = m.wanted cfg
  spacing : m.fsq.spacing = p.fsq.spacing
  hold : m.fsq.hold = p.fsq.hold
  budget : m.fsq.budget = p.gal.budget
  gal : m.gal = (recordPass (allocate cfg p) p).gal
  events : m.events = (recordPass (allocate cfg p) p).events

theorem wanted_congr {cfg : Settings} {p q : Plant} (queue : q.fsq.queue = p.fsq.queue) (budget : q.fsq.budget = p.fsq.budget)
    (state : ∀ f, (q.fan f).state = (p.fan f).state) (output : ∀ f, (q.fan f).output = (p.fan f).output)
    (target : ∀ f, (q.fan f).target = (p.fan f).target) : q.wanted cfg = p.wanted cfg := by
  have same : reservation cfg q = reservation cfg p := funext fun f => by rw [reservation, reservation, target]
  rw [Plant.wanted, Plant.wanted, queue, budget, drawn_congr state output target, same]

/-- A re-tested entry that stands is the one that a queue test would stage. -/
theorem retested_wanted (cfg : Settings) (p : Plant) : p.retested cfg = none ∨ p.retested cfg = p.wanted cfg := by
  rcases staged : p.fsq.staged with _ | x
  · exact .inl (retested_none staged)
  · rcases queue : p.fsq.queue with _ | ⟨e, es⟩
    · exact .inl (retested_ahead staged fun e es other => by simp [queue] at other)
    · rw [retested_head staged queue, Plant.wanted, queue]
      dsimp only
      split
      · rename_i stands
        obtain ⟨head, fits⟩ := stands
        refine .inr ?_
        rw [head, if_pos fits]
      · exact .inl rfl

theorem Plant.recorded_fsq (cfg : Settings) (p : Plant) : (p.recorded cfg).fsq = { p.fsq with budget := p.gal.budget } := by
  rw [Plant.recorded, Plant.budgeted, recordPass]
  simp

theorem Plant.recorded_gal (cfg : Settings) (p : Plant) : (p.recorded cfg).gal = (recordPass (allocate cfg p) p).gal := rfl

theorem fsqPass_eq (cfg : Settings) (grants : PerFan Grant) (p : Plant) : fsqPass cfg grants p =
    let x := Fan.all.foldl setOverride (retest cfg (reclass (grantAll cfg grants Fan.all p.budgeted)), [])
    ((queueTest cfg x.1).1, x.2 ++ (queueTest cfg x.1).2) := by
  unfold fsqPass grantAll Plant.budgeted
  dsimp only

theorem fsqPass_covered {cfg : Settings} {p : Plant} (ok : p.QueueOk)
    (covered : ∀ f, ((p.fan f).granted cfg.timers.coast ((allocate cfg p).grants.get f)).uncovered = false) :
    ∃ m, p.Passed cfg m ∧ fsqPass cfg (allocate cfg p).grants (recordPass (allocate cfg p) p) = queueTest cfg m := by
  rw [fsqPass_eq, ← Plant.recorded]
  generalize recorded : p.recorded cfg = p1
  have fsq : p1.fsq = { p.fsq with budget := p.gal.budget } := recorded ▸ p.recorded_fsq cfg
  have fan1 (f : Fan) : p1.fan f = p.fan f := by rw [Plant.fan, fsq]; rfl
  have ok1 : p1.QueueOk := ok.of_same (by rw [fsq]) (by rw [fsq]) (by rw [fsq]; exact ok.2.2.2.2.2) fun f => by rw [fan1]
  have fan2 (f : Fan) : (grantAll cfg (allocate cfg p).grants Fan.all p1).fan f = (p.fan f).granted cfg.timers.coast ((allocate cfg p).grants.get f) := by
    rw [grantAll_fan cfg _ Fan.all_nodup, if_pos (Fan.mem_all f), fan1]
  have joined : p1.Joined (grantAll cfg (allocate cfg p).grants Fan.all p1) Fan.all := Plant.Joined.grants ok1 cfg _ Fan.all (done := []) Fan.all_ascending (.refl ok1)
  have only := grantAll_only cfg (allocate cfg p).grants Fan.all p1
  have ok2 : (grantAll cfg (allocate cfg p).grants Fan.all p1).QueueOk := (foldl_chain (fun q f => applyGrant_chain cfg q f _) Fan.all p1).queueOk ok1
  generalize grantAll cfg (allocate cfg p).grants Fan.all p1 = p2 at *
  have retested := retest_eq cfg (reclass p2)
  have ok3 : (retest cfg (reclass p2)).QueueOk := FanMove.reorder.queueOk (cfg := cfg) ok2
  obtain ⟨fans, made, records⟩ := setOverrides_covered Fan.all_nodup (x := (retest cfg (reclass p2), []))
    fun f _ => by
      rw [retested]
      exact (congrArg FanRec.uncovered (fan2 f)).trans (covered f)
  have ok4 := (setOverrides_chain cfg Fan.all (retest cfg (reclass p2), [])).queueOk ok3
  rw [made] at ok4
  rw [made]
  refine ⟨_, ?_, rfl⟩
  dsimp only at ok4 records ⊢
  have fan (f : Fan) : fans.get f = p.afterPass cfg f := by
    rw [records, if_pos (Fan.mem_all f), retested]
    exact congrArg FanRec.overridden (fan2 f)
  have entry {e : QueueEntry} (mem : e ∈ (retest cfg (reclass p2)).fsq.queue) :
      ∃ d ∈ p2.fsq.queue, e = { d with fire := (p2.fan d.fan).fire } := by
    rw [retested] at mem
    obtain ⟨d, old, same⟩ := List.mem_map.mp ((sortQueue_perm _).mem_iff.mp mem)
    exact ⟨d, old, same.symm⟩
  have next1 : p1.fsq.nextArrival = p.fsq.nextArrival := by rw [fsq]
  refine {
    fan := fan
    ok := ok4
    joined := fun e mem => ?_
    order := fun a memA b memB => ?_
    staged := ?_
    spacing := ?_
    hold := ?_
    budget := ?_
    gal := ?_
    events := ?_ }
  · obtain ⟨d, old, rfl⟩ := entry mem
    refine ⟨?_, ?_⟩
    · refine (congrArg FanRec.fire (fan2 d.fan)).trans (congrArg FanRec.fire (fan d.fan)).symm
    · have came := joined.entry d old
      rw [fan1, fsq] at came
      exact came.imp_right fun ⟨state, late, _⟩ => ⟨state, late⟩
  · obtain ⟨a', oldA, rfl⟩ := entry memA
    obtain ⟨b', oldB, rfl⟩ := entry memB
    have order := joined.order a' oldA b' oldB
    rw [next1] at order
    exact order
  · have same : Plant.wanted cfg { retest cfg (reclass p2) with fsq := { (retest cfg (reclass p2)).fsq with fans := fans } } =
        (reclass p2).wanted cfg := by
      have record (f : Fan) : fans.get f = ((reclass p2).fan f).overridden := by
        rw [records, if_pos (Fan.mem_all f), retested]
        rfl
      have state (f : Fan) : (fans.get f).state = ((reclass p2).fan f).state := by rw [record]; rfl
      have output (f : Fan) : (fans.get f).output = ((reclass p2).fan f).output := by rw [record]; rfl
      have target (f : Fan) : (fans.get f).target = ((reclass p2).fan f).target := by rw [record]; rfl
      exact wanted_congr (by rw [retested]) (by rw [retested]) state output target
    rw [same, retested]
    exact retested_wanted cfg (reclass p2)
  · rw [retested, only]
    change p1.fsq.spacing = p.fsq.spacing
    rw [fsq]
  · rw [retested, only]
    change p1.fsq.hold = p.fsq.hold
    rw [fsq]
  · rw [retested, only]
    change p1.fsq.budget = p.gal.budget
    rw [fsq]
  · rw [retested, only, ← recorded]
    rfl
  · rw [retested, only, ← recorded]
    rfl

/-- A pass whose queue test trips no fan ends with the statuses and the rotation (R119, R129). -/
theorem runPass_covered {cfg : Settings} {p m : Plant}
    (handed : fsqPass cfg (allocate cfg p).grants (recordPass (allocate cfg p) p) = queueTest cfg m)
    (quiet : (queueTest cfg m).2 = []) :
    runPass cfg p = rotate p.gal.groups (allocate cfg p).groups (refreshStatus cfg (queueTest cfg m).1) := by
  unfold runPass passes
  dsimp only
  rw [handed, quiet]
  rfl

/-- The plants whose next pass finds no failure: the rules of the fan side hold, a supply hold grants nothing, and no fan
with its drive fault made is granted a speed without the fire flag. -/
structure Plant.Covered (cfg : Settings) (p : Plant) : Prop where
  queue : p.QueueOk
  run : ∀ f, (p.fan f).state.inService = true → (p.fan f).run = true
  hold : p.fsq.hold = true → ∀ f, ((allocate cfg p).grants.get f).target = 0
  sound : ∀ f, (p.fan f).driveFault = true →
    ((allocate cfg p).grants.get f).target = 0 ∨ ((allocate cfg p).grants.get f).fire = true

theorem allocate_hold {cfg : Settings} {p : Plant} (h : p.supplyHold = true) (f : Fan) :
    (allocate cfg p).grants.get f = { target := 0, fire := false } := by
  unfold allocate
  dsimp only
  rw [if_pos h]
  exact PerFan.get_build ..

theorem Plant.Covered.of_holdOk {cfg : Settings} {p : Plant} (ok : p.QueueOk) (hold : p.HoldOk)
    (sound : ∀ f, (p.fan f).driveFault = true →
      ((allocate cfg p).grants.get f).target = 0 ∨ ((allocate cfg p).grants.get f).fire = true) : p.Covered cfg where
  queue := ok
  run f service := (hold.1 f).trans service
  hold held f := by rw [allocate_hold (hold.2.1.symm.trans held)]
  sound := sound

/-- In a supply hold, with no run command on, the next pass finds no failure. -/
theorem Plant.Covered.of_hold {cfg : Settings} {p : Plant} (ok : p.QueueOk) (held : p.supplyHold = true)
    (idle : ∀ f, (p.fan f).state.inService = false) : p.Covered cfg where
  queue := ok
  run f service := absurd ((idle f).symm.trans service) (by decide)
  hold _ f := by rw [allocate_hold held]
  sound f _ := .inl (by rw [allocate_hold held])

section
variable {cfg : Settings} {p m : Plant}

theorem Plant.Covered.granted (h : p.Covered cfg) (f : Fan) :
    ((p.fan f).granted cfg.timers.coast ((allocate cfg p).grants.get f)).uncovered = false := by
  by_cases service : ((p.fan f).granted cfg.timers.coast ((allocate cfg p).grants.get f)).state.inService = true
  · have record := FanRec.granted_inService service
    rw [record] at service ⊢
    by_cases fault : (p.fan f).driveFault = true
    · rcases h.sound f fault with none | fire
      · have idle := (FanRec.granted_none (coast := cfg.timers.coast) (r := p.fan f) none).1
        rw [record] at idle
        exact absurd (idle.symm.trans service) (by decide)
      · simp [FanRec.uncovered, h.run f service, fire]
    · simp [FanRec.uncovered, fault]
  · simp [FanRec.uncovered, service]

theorem Plant.Passed.hold_empty (passed : p.Passed cfg m) (h : p.Covered cfg) (held : m.fsq.hold = true) :
    m.fsq.queue = [] := by
  refine List.eq_nil_iff_forall_not_mem.mpr fun e mem => ?_
  have queued := (passed.ok.1 e mem).1
  rw [passed.fan] at queued
  exact (FanRec.granted_none (h.hold (passed.hold.symm.trans held) e.fan)).2 queued

theorem Plant.Passed.head_sound (passed : p.Passed cfg m) (h : p.Covered cfg) {e : QueueEntry} (mem : e ∈ m.fsq.queue) :
    (m.fan e.fan).Sound := by
  have queued := (passed.ok.1 e mem).1
  rw [passed.fan] at queued ⊢
  unfold Plant.afterPass at queued ⊢
  unfold FanRec.Sound
  simp only [FanRec.overridden, FanRec.granted_driveFault, FanRec.granted_fire] at queued ⊢
  by_cases fault : (p.fan e.fan).driveFault = true
  · exact .inr ((h.sound e.fan fault).resolve_left fun none => (FanRec.granted_none none).2 queued)
  · exact .inl (Bool.eq_false_iff.mpr fault)

theorem Plant.Passed.stageHead (passed : p.Passed cfg m) (h : p.Covered cfg) :
    Machine.stageHead cfg m = m.stage (m.wanted cfg) := by
  rcases staged : m.fsq.staged with _ | x
  · exact stageHead_unstaged staged (passed.hold_empty h)
  · have same := passed.staged.resolve_left (by rw [staged]; simp)
    rw [stageHead_staged staged, ← same, Plant.stage_staged]

/-- A queue test after a pass that launches no fan. -/
theorem Plant.Passed.queueTest_rests (passed : p.Passed cfg m) (h : p.Covered cfg)
    (rests : m.wanted cfg = none ∨ mayLaunch m = false) : queueTest cfg m = (m.stage (m.wanted cfg), []) := by
  rw [Machine.queueTest_rests (rests.imp_left fun none => by rw [passed.stageHead h]; exact none), passed.stageHead h]

/-- The plant after the launch of the head of its queue. -/
def Plant.headLaunched (cfg : Settings) (m : Plant) (e : QueueEntry) (es : List QueueEntry) : Plant :=
  { m with fsq := { m.fsq with
    fans := m.fsq.fans.set e.fan ((m.fan e.fan).started cfg e.fan), queue := es, staged := none
    spacing := some cfg.timers.spacing } }

/-- A queue test after a pass that launches the head of the queue. -/
theorem Plant.Passed.queueTest_launches (passed : p.Passed cfg m) (h : p.Covered cfg) {e : QueueEntry}
    {es : List QueueEntry} (queue : m.fsq.queue = e :: es) (may : mayLaunch m = true)
    (fits : e.fire = true ∨ drawn cfg m + reservation cfg m e.fan ≤ m.fsq.budget) :
    queueTest cfg m =
      ((m.headLaunched cfg e es).stage ((m.headLaunched cfg e es).wanted cfg), []) := by
  obtain ⟨spacing, idle⟩ := mayLaunch_iff.mp may
  have free : m.fsq.hold = false := Bool.eq_false_iff.mpr fun held => by simp [passed.hold_empty h held] at queue
  rw [queueTest_head passed.ok queue spacing free idle (.inr fits)
    (passed.head_sound h (by rw [queue]; exact List.mem_cons_self)), ← Plant.headLaunched,
    stageHead_unstaged (p := m.headLaunched cfg e es) rfl fun held => absurd (free.symm.trans held) (by decide)]

/-- No queue test after a pass of a covered plant trips a fan, and it leaves staged what R140 asks for. -/
theorem Plant.Passed.queueTest (passed : p.Passed cfg m) (h : p.Covered cfg) :
    (Machine.queueTest cfg m).2 = [] ∧
      (Machine.queueTest cfg m).1.fsq.staged = (Machine.queueTest cfg m).1.wanted cfg := by
  by_cases rests : m.wanted cfg = none ∨ mayLaunch m = false
  · rw [passed.queueTest_rests h rests]
    exact ⟨rfl, (wanted_congr rfl rfl (fun _ => rfl) (fun _ => rfl) fun _ => rfl).symm⟩
  · obtain ⟨wants, may⟩ := not_or.mp rests
    rcases queue : m.fsq.queue with _ | ⟨e, es⟩
    · exact absurd (by rw [Plant.wanted, queue]) wants
    · have fits : e.fire = true ∨ drawn cfg m + reservation cfg m e.fan ≤ m.fsq.budget := by
        by_contra short
        refine wants ?_
        rw [Plant.wanted, queue]
        exact if_neg short
      rw [passed.queueTest_launches h queue (Bool.eq_true_of_not_eq_false may) fits]
      exact ⟨rfl, (wanted_congr rfl rfl (fun _ => rfl) (fun _ => rfl) fun _ => rfl).symm⟩

end

/-! ## The end of the pass (R129) -/

theorem rotateDuty_eq (l : List Fan) : rotateDuty l = l.drop 1 ++ l.take 1 := by
  cases l <;> rfl

theorem Plant.setDuty_group (p : Plant) (g h : Group) (d : List Fan) : (p.setDuty g d).gal.groups.get h =
    if h = g then { p.gal.groups.get g with duty := d } else p.gal.groups.get h := PerGroup.get_set ..

theorem rotate_group (before now : PerGroup GroupRec) (p : Plant) (g : Group) :
    (rotate before now p).gal.groups.get g = { p.gal.groups.get g with
      duty := if (before.get g).grantsAny && !(now.get g).grantsAny then
        (p.gal.groups.get g).duty.drop 1 ++ (p.gal.groups.get g).duty.take 1 else (p.gal.groups.get g).duty } := by
  have each := foldl_each (ι := Group) (view := fun (q : Plant) g => q.gal.groups.get g)
    (f := fun q g => if (before.get g).grantsAny && !(now.get g).grantsAny then
      q.setDuty g (rotateDuty (q.gal.groups.get g).duty) else q)
    (goal := fun q g => { q.gal.groups.get g with
      duty := if (before.get g).grantsAny && !(now.get g).grantsAny then
        (q.gal.groups.get g).duty.drop 1 ++ (q.gal.groups.get g).duty.take 1 else (q.gal.groups.get g).duty })
    (fun q g => by
      dsimp only
      split
      · rw [Plant.setDuty_group, if_pos rfl, rotateDuty_eq]
      · rfl)
    (fun q g h other => by
      split
      · rw [Plant.setDuty_group, if_neg other]
      · rfl)
    (fun q g h other => by
      dsimp only
      split
      · rw [Plant.setDuty_group, if_neg other]
      · rfl) Group.all_nodup p g
  exact each.trans (if_pos (Group.mem_all g))

theorem rotate_only (before now : PerGroup GroupRec) (p : Plant) : rotate before now p =
    { p with gal := { p.gal with groups := (rotate before now p).gal.groups } } := by
  unfold rotate
  induction Group.all generalizing p with
  | nil => rfl
  | cons g gs ih =>
    rw [List.foldl_cons, ih]
    split <;> rfl

/-- What a pass of a covered plant leaves: the queue test's fans, and the outcome with the duty orders rotated. -/
theorem runPass_passed {cfg : Settings} {p : Plant} (h : p.Covered cfg) : ∃ m, p.Passed cfg m ∧
    (runPass cfg p).fsq = (queueTest cfg m).1.fsq ∧ (runPass cfg p).gal.grants = (allocate cfg p).grants ∧
    (runPass cfg p).gal.fireShort = (allocate cfg p).fireShort ∧
    ∀ g, (runPass cfg p).gal.groups.get g = { (allocate cfg p).groups.get g with
      duty := if (p.gal.groups.get g).grantsAny && !((allocate cfg p).groups.get g).grantsAny then
        (p.gal.groups.get g).duty.drop 1 ++ (p.gal.groups.get g).duty.take 1 else (p.gal.groups.get g).duty } := by
  obtain ⟨m, passed, handed⟩ := fsqPass_covered h.queue h.granted
  have run := runPass_covered handed (passed.queueTest h).1
  have gal : (queueTest cfg m).1.gal = (recordPass (allocate cfg p) p).gal :=
    (Plant.FsqOnly.queueTest cfg m).gal.trans passed.gal
  have recorded : (recordPass (allocate cfg p) p).gal = { p.gal with
      groups := (allocate cfg p).groups, grants := (allocate cfg p).grants, fireShort := (allocate cfg p).fireShort } := by
    rw [recordPass, Plant.raiseIf_gal]
  have groups := rotate_group p.gal.groups (allocate cfg p).groups (refreshStatus cfg (queueTest cfg m).1)
  have only := rotate_only p.gal.groups (allocate cfg p).groups (refreshStatus cfg (queueTest cfg m).1)
  rw [← run] at groups only
  rw [refreshStatus_gal, gal, recorded] at groups
  have refreshed : (refreshStatus cfg (queueTest cfg m).1).gal = { p.gal with
      groups := (allocate cfg p).groups, grants := (allocate cfg p).grants, fireShort := (allocate cfg p).fireShort } :=
    (refreshStatus_gal cfg _).trans (gal.trans recorded)
  have fsq := refreshStatus_fsq cfg (queueTest cfg m).1
  generalize runPass cfg p = t at groups only
  generalize refreshStatus cfg (queueTest cfg m).1 = u at only refreshed fsq
  refine ⟨m, passed, by rw [only]; exact fsq, by rw [only, refreshed], by rw [only, refreshed], fun g => ?_⟩
  rw [groups, allocate_duty]

/-- A pass in a supply hold, with no run command on, only takes the targets and the fire flags back. -/
theorem runPass_held {cfg : Settings} {p : Plant} (ok : p.QueueOk) (held : p.supplyHold = true) (hold : p.fsq.hold = true)
    (idle : ∀ f, (p.fan f).state.inService = false) : (runPass cfg p).fsq.queue = [] ∧
      (runPass cfg p).fsq.staged = none ∧ (runPass cfg p).fsq.spacing = p.fsq.spacing ∧
      ∀ f, (runPass cfg p).fan f = ((p.fan f).granted cfg.timers.coast ⟨0, false⟩).overridden := by
  have covered := Plant.Covered.of_hold (cfg := cfg) ok held idle
  obtain ⟨m, passed, fsq, -, -, -⟩ := runPass_passed covered
  have empty := passed.hold_empty covered (passed.hold.trans hold)
  have none : m.wanted cfg = none := by rw [Plant.wanted, empty]
  rw [passed.queueTest_rests covered (.inl none), none] at fsq
  generalize runPass cfg p = t at fsq ⊢
  refine ⟨fsq ▸ empty, by rw [fsq]; rfl, by rw [fsq]; exact passed.spacing, fun f => ?_⟩
  rw [Plant.fan, fsq]
  refine (passed.fan f).trans ?_
  rw [Plant.afterPass, allocate_hold held]

end Sys2Proof.Machine

/-! Fans returned to service, and the supply. -/

namespace Sys2Proof.Machine

/-! ## Fans returned to service (R157) -/

/-- No move of the fan side locks a fan. -/
theorem FanMove.unlocked {cfg : Settings} {p q : Plant} (m : FanMove cfg p q) {f : Fan}
    (free : (p.fan f).state ≠ .locked) : (q.fan f).state ≠ .locked := by
  have apart (g : Fan) (r : FanRec) (state : r.state ≠ .locked) : ((p.setFan g r).fan f).state ≠ .locked := by
    rw [Plant.setFan_fan]
    split <;> assumption
  cases m with
  | note _ _ _ _ state => rwa [state]
  | join g r _ _ _ state =>
    rw [Plant.fan, Plant.join_fans]
    exact apart g r (by rw [state]; decide)
  | leave g r _ _ state =>
    rw [Plant.leave_setFan, Plant.fan, Plant.leave_fans]
    exact apart g r (by rw [state]; decide)
  | stop g r _ _ state => exact apart g r (by rcases state with state | state <;> rw [state] <;> decide)
  | rest g r _ _ state => exact apart g r (by rw [state]; decide)
  | prove g r _ _ state => exact apart g r (by rcases state with state | state <;> rw [state] <;> decide)
  | stage => exact free
  | launch x r _ _ _ state =>
    rw [Plant.setFan_fan]
    split
    · rw [state]
      decide
    · rw [Plant.fan, Plant.leave_fans]
      exact free
  | reorder =>
    rw [Plant.fan, retest_fans]
    exact free

theorem FanChain.unlocked {cfg : Settings} {p q : Plant} (h : FanChain cfg p q) {f : Fan}
    (free : (p.fan f).state ≠ .locked) : (q.fan f).state ≠ .locked :=
  h.keeps (I := fun q => (q.fan f).state ≠ .locked) (fun m => m.unlocked) free

/-- A TRIPPED or LOCKED fan's record as it returns to service. -/
def FanRec.returned (r : FanRec) (attempts : Nat) : FanRec := { r with state := .off, cause := .none, attempts := attempts }

theorem Plant.HoldOk.idle {p : Plant} (h : p.HoldOk) (held : p.supplyHold = true) (f : Fan) :
    (p.fan f).state.inService = false := by
  obtain ⟨run, hold, -, off⟩ := h
  rw [← run]
  exact (off (hold.trans held)).2 f

theorem requestHandler_unlockFan {n : Byte} {f : Fan} (h : n.toNat = f.number) (s : State) :
    requestHandler (.unlockFan n) s = if (s.plant.fan f).state = .locked then
      (s.onPlant (returnPlantFan s.cfg f), .done) else (s, .refused .state) := by
  simp only [requestHandler, askUnlock, withFan_number h]

theorem requestHandler_resetFan {n : Byte} {f : Fan} (h : n.toNat = f.number) (s : State) :
    requestHandler (.resetFan n) s = if (s.plant.fan f).state = .tripped then
      (s.onPlant fun p => returnPlantFan s.cfg f (p.setFan f { p.fan f with attempts := 0 }), .done)
      else (s, .refused .state) := by
  simp only [requestHandler, askReset, withFan_number h]

/-- What the return of a fan out of service does to the plant (R157). -/
theorem returned_spec (cfg : Settings) (p : Plant) (f : Fan) (attempts : Nat) (queue : p.QueueOk)
    (lost : (p.fan f).state.inReach = false) :
    let t := runPass cfg (refreshStatus cfg (p.setFan f ((p.fan f).returned attempts)))
    p.SameFireSide t ∧ (t.fan f).state ≠ .locked ∧ (p.HoldOk → p.supplyHold = true →
      (t.fan f).state = .off ∧ (t.fan f).cause = .none ∧ (t.fan f).attempts = attempts) := by
  intro t
  have chain : FanChain cfg (p.setFan f ((p.fan f).returned attempts)) t :=
    (refreshStatus_chain cfg _).trans (runPass_chain cfg _)
  have own : (p.setFan f ((p.fan f).returned attempts)).fan f = (p.fan f).returned attempts := Plant.setFan_fan_self ..
  have same : p.SameFireSide (p.setFan f ((p.fan f).returned attempts)) := .of_setFan rfl
  refine ⟨same.trans chain.same, chain.unlocked (by rw [own]; exact (by decide : FanState.off ≠ .locked)),
    fun ok held => ?_⟩
  have set := queue.setFan_unqueued f ((p.fan f).returned attempts) (fun queued => by simp [queued, FanState.inReach] at lost)
    (by decide : FanState.off ≠ .queued)
  have ready := (refreshStatus_chain cfg _).queueOk set
  have hold : (refreshStatus cfg (p.setFan f ((p.fan f).returned attempts))).supplyHold = true :=
    (congrArg (fun x : Spm => x.state == .transfer || x.settle.isSome) (refreshStatus_spm cfg _)).trans held
  have fan (g : Fan) : (refreshStatus cfg (p.setFan f ((p.fan f).returned attempts))).fan g =
      if g = f then (p.fan f).returned attempts else p.fan g := by
    rw [Plant.fan, refreshStatus_fsq]
    exact Plant.setFan_fan ..
  obtain ⟨-, -, -, fans⟩ := runPass_held (cfg := cfg) ready hold (by rw [refreshStatus_fsq]; exact ok.2.1.trans held)
    fun g => by
      rw [fan]
      split
      · rfl
      · exact ok.idle held g
  rw [fans f, fan, if_pos rfl]
  exact ⟨rfl, rfl, rfl⟩

/-- Settles O36. -/
theorem returnedFansGoToOff : Obligations.ReturnedFansGoToOff := by
  intro s f n h queue number
  have back {t : State} {attempts : Nat} (lost : (s.plant.fan f).state.inReach = false)
      (plant : t.plant = runPass s.cfg (refreshStatus s.cfg (s.plant.setFan f ((s.plant.fan f).returned attempts)))) :
      s.plant.SameFireSide t.plant ∧ (t.plant.fan f).state ≠ .locked ∧ (s.plant.HoldOk → s.plant.supplyHold = true →
        (t.plant.fan f).state = .off ∧ (t.plant.fan f).cause = .none ∧ (t.plant.fan f).attempts = attempts) := by
    rw [plant]
    exact returned_spec s.cfg s.plant f attempts queue lost
  refine ⟨fun other => ?_, fun other => ?_, fun locked => ?_, fun tripped => ?_⟩
  · exact exec_replied (.unlockFan n) h ((requestHandler_unlockFan number s.hearB).trans (if_neg other))
  · exact exec_replied (.resetFan n) h ((requestHandler_resetFan number s.hearB).trans (if_neg other))
  · obtain ⟨t, ran, replied, plant, only⟩ := exec_onPlant (.unlockFan n) h
      ((requestHandler_unlockFan number s.hearB).trans (if_pos locked))
    obtain ⟨same, free, held⟩ := back (attempts := (s.plant.fan f).attempts) (by rw [locked]; rfl) plant
    exact ⟨t, ran, replied, plant, same, free, held, only⟩
  · have carried := (requestHandler_resetFan number s.hearB).trans (if_pos tripped)
    obtain ⟨t, ran, replied, plant, only⟩ := exec_onPlant (.resetFan n) h carried
    have made : t.plant = runPass s.cfg (refreshStatus s.cfg (s.plant.setFan f ((s.plant.fan f).returned 0))) := by
      refine plant.trans (?_ : returnPlantFan s.cfg f (s.plant.setFan f { s.plant.fan f with attempts := 0 }) = _)
      unfold returnPlantFan
      rw [Plant.setFan_fan_self]
      exact congrArg (fun p => runPass s.cfg (refreshStatus s.cfg p)) (Plant.setFan_setFan _ _ _ _)
    obtain ⟨same, free, held⟩ := back (by rw [tripped]; rfl) made
    exact ⟨t, ran, replied, made, same, free, held, only⟩

/-! ## The supply (R158, R162 to R165) -/

/-- From `p` to `q` the supply has changed: nothing of claims, dampers and the fire order list has, and `q` holds the given
supply record, hold and budget, with SUPPLY-CHANGE pending. -/
structure Plant.Supplied (p q : Plant) (spm : Spm) (hold : Bool) (budget : Nat) : Prop where
  zones : ∀ z, (q.zones.get z).claims = (p.zones.get z).claims ∧ q.dampers.get z = p.dampers.get z
  fireOrder : q.fireOrder = p.fireOrder
  spm : q.spm = spm
  hold : q.fsq.hold = hold
  budget : q.gal.budget = budget
  event : q.events.supplyChange = true

theorem supplyReport_supplied (cfg : Settings) (cap : Option Nat) (p : Plant) :
    p.Supplied ((supplyReport cfg cap p).raise .supplyChange) p.spm p.fsq.hold (budgetFor cfg cap p) := by
  have same := supplyReport_same cfg cap p
  generalize supplyReport cfg cap p = q at same ⊢
  refine ⟨fun z => ⟨same.claims z, congrArg (PerZone.get · z) same.dampers⟩, same.fireOrder, same.spm, same.hold,
    same.budget, rfl⟩

theorem Plant.Supplied.of_same {p p' q : Plant} {spm : Spm} {hold : Bool} {budget : Nat} (h : p'.Supplied q spm hold budget)
    (zones : ∀ z, (p'.zones.get z).claims = (p.zones.get z).claims ∧ p'.dampers.get z = p.dampers.get z)
    (fireOrder : p'.fireOrder = p.fireOrder) : p.Supplied q spm hold budget :=
  ⟨fun z => ⟨(h.zones z).1.trans (zones z).1, (h.zones z).2.trans (zones z).2⟩, h.fireOrder.trans fireOrder, h.spm, h.hold,
    h.budget, h.event⟩

theorem budgetFor_held {cfg : Settings} {cap : Option Nat} {p : Plant} (h : p.supplyHold = true) :
    budgetFor cfg cap p = 0 := if_pos h

theorem FanRec.dropped_idle (r : FanRec) : r.dropped.state.inService = false ∧ r.dropped.state ≠ .queued := by
  rcases dropped_state r with off | ⟨lost, same⟩
  · rw [off]
    decide
  · rw [same]
    cases state : r.state <;> simp_all [FanState.inReach, FanState.inService]

/-- The plant in TRANSFER, with FSQ in supply hold, before GAL's pass. -/
def Plant.transferred (cfg : Settings) (cap : Option Nat) (p : Plant) : Plant :=
  setBudgetInForce cfg cap (refreshStatus cfg (enterHold { p with spm := { p.spm with state := .transfer, settle := none } }))

theorem Plant.transferred_fsq (cfg : Settings) (cap : Option Nat) (p : Plant) : (p.transferred cfg cap).fsq =
    { p.fsq with fans := .build fun f => (p.fan f).dropped, queue := [], staged := none, spacing := none, hold := true } :=
  refreshStatus_fsq ..

theorem Plant.transferred_fan (cfg : Settings) (cap : Option Nat) (p : Plant) (f : Fan) :
    (p.transferred cfg cap).fan f = (p.fan f).dropped := by
  rw [Plant.fan, Plant.transferred_fsq]
  exact PerFan.get_build ..

/-- What entry into TRANSFER does (R158, R163). -/
theorem enterTransfer_supplied (cfg : Settings) (cap : Option Nat) (p : Plant) :
    p.Supplied (enterTransfer cfg cap p) { p.spm with state := .transfer, settle := none } true 0 := by
  have reported := supplyReport_supplied cfg cap
    (refreshStatus cfg (enterHold { p with spm := { p.spm with state := .transfer, settle := none } }))
  have spm := refreshStatus_spm cfg (enterHold { p with spm := { p.spm with state := .transfer, settle := none } })
  have held : (refreshStatus cfg (enterHold { p with spm := { p.spm with state := .transfer, settle := none } })).supplyHold =
      true := by
    rw [Plant.supplyHold, spm]
    rfl
  rw [budgetFor_held held, spm, refreshStatus_fsq] at reported
  refine reported.of_same (fun z => ⟨?_, ?_⟩) (refreshStatus_fireOrder cfg _)
  · rw [refreshStatus_zone]
    rfl
  · rw [refreshStatus_dampers]
    rfl

theorem enterTransfer_eq (cfg : Settings) (cap : Option Nat) (p : Plant) :
    enterTransfer cfg cap p = (runPass cfg (p.transferred cfg cap)).raise .supplyChange := by
  unfold enterTransfer supplyReport Plant.transferred
  dsimp only

theorem enterTransfer_fans (cfg : Settings) (cap : Option Nat) (p : Plant) :
    (enterTransfer cfg cap p).fsq.queue = [] ∧ (enterTransfer cfg cap p).fsq.staged = none ∧
      (enterTransfer cfg cap p).fsq.spacing = none ∧ ∀ f, (enterTransfer cfg cap p).fan f =
        ((p.fan f).dropped.granted cfg.timers.coast ⟨0, false⟩).overridden := by
  have fan := p.transferred_fan cfg cap
  have fsq := p.transferred_fsq cfg cap
  have ok : (p.transferred cfg cap).QueueOk := .of_empty (by rw [fsq]) (by rw [fsq]) fun f => by
    rw [fan]
    exact (FanRec.dropped_idle _).2
  have held : (p.transferred cfg cap).supplyHold = true := by
    have spm : (p.transferred cfg cap).spm = { p.spm with state := .transfer, settle := none } := refreshStatus_spm ..
    rw [Plant.supplyHold, spm]
    rfl
  obtain ⟨queue, staged, spacing, fans⟩ := runPass_held (cfg := cfg) ok held (by rw [fsq]) fun f => by
    rw [fan]
    exact (FanRec.dropped_idle _).1
  rw [fsq] at spacing
  simp only [fan] at fans
  rw [enterTransfer_eq]
  generalize runPass cfg (p.transferred cfg cap) = q at queue staged spacing fans ⊢
  exact ⟨queue, staged, spacing, fans⟩

/-- A fan's record after the loss of the supply. -/
theorem FanRec.dropped_granted (r : FanRec) (coast : Nat) :
    let t := (r.dropped.granted coast ⟨0, false⟩).overridden
    t.target = 0 ∧ t.attempts = 0 ∧ (r.state = .tripped ∨ r.state = .locked → t.state = r.state ∧ t.cause = r.cause) ∧
      (r.state ≠ .tripped → r.state ≠ .locked → t.state = .off ∧ t.run = false ∧ t.output = 0) := by
  dsimp only
  cases state : r.state <;>
    simp [FanRec.dropped, FanRec.granted, FanRec.overridden, FanRec.release, FanState.inReach, state]

theorem changeSupply_same {cfg : Settings} {cap : Option Nat} {p : Plant} {next : SupplyState} (h : next = p.spm.state) :
    changeSupply cfg cap next p = p := by
  unfold changeSupply
  rw [h]
  cases p.spm.state <;> rfl

theorem changeSupply_lost {cfg : Settings} {cap : Option Nat} {p : Plant} (h : p.spm.state ≠ .transfer) :
    changeSupply cfg cap .transfer p = enterTransfer cfg cap p := by
  cases state : p.spm.state with
  | transfer => exact absurd state h
  | mains =>
    unfold changeSupply
    rw [state]
  | generator =>
    unfold changeSupply
    rw [state]

@[simp] theorem Spm.setLevel_state (x : Spm) (i : SupplyInput) (b : Bool) : (x.setLevel i b).state = x.state := by
  cases i <;> rfl

@[simp] theorem Spm.setLevel_settle (x : Spm) (i : SupplyInput) (b : Bool) : (x.setLevel i b).settle = x.settle := by
  cases i <;> rfl

/-- Settles O59. -/
theorem lostSupplyDropsEveryFan : Obligations.LostSupplyDropsEveryFan := by
  refine ⟨fun s i b h => ⟨fun same => ?_, fun lost was => ?_⟩, fun a b => rfl, fun x b => ⟨rfl, rfl⟩⟩
  · refine exec_handled h (c := .supplyInputChange i b) rfl (congrArg (fun p => s.onPlant fun _ => p)
      (changeSupply_same (p := { s.plant with spm := s.plant.spm.setLevel i b }) ?_))
    exact same.trans (Spm.setLevel_state _ _ _).symm
  · have left : changeSupplyInput s.cfg s.bli.cap i b s.plant =
        enterTransfer s.cfg s.bli.cap { s.plant with spm := s.plant.spm.setLevel i b } := by
      rw [changeSupplyInput, lost]
      exact changeSupply_lost (by rw [Spm.setLevel_state]; exact was)
    obtain ⟨t, ran, plant, only⟩ := exec_plant h (c := .supplyInputChange i b)
      (f := fun s => changeSupplyInput s.cfg s.bli.cap i b) rfl left
    obtain ⟨queue, staged, spacing, fans⟩ :=
      enterTransfer_fans s.cfg s.bli.cap { s.plant with spm := s.plant.spm.setLevel i b }
    have supplied := enterTransfer_supplied s.cfg s.bli.cap { s.plant with spm := s.plant.spm.setLevel i b }
    rw [← plant] at queue staged spacing fans supplied
    refine ⟨t, ran, supplied.spm, supplied.hold, supplied.budget, queue, staged, spacing, fun f => ?_, supplied.event,
      supplied.zones, supplied.fireOrder, only⟩
    rw [fans]
    exact FanRec.dropped_granted _ _

theorem changeSupply_returned {cfg : Settings} {cap : Option Nat} {p : Plant} {next : SupplyState}
    (was : p.spm.state = .transfer) (now : next ≠ .transfer) :
    changeSupply cfg cap next p = returnSupply cfg cap next p := by
  unfold changeSupply
  rw [was]
  cases next with
  | transfer => exact absurd rfl now
  | mains => rfl
  | generator => rfl

theorem changeSupply_switched {cfg : Settings} {cap : Option Nat} {p : Plant} (was : p.spm.state = .mains) :
    changeSupply cfg cap .generator p = returnSupply cfg cap .generator (enterTransfer cfg cap p) := by
  unfold changeSupply
  rw [was]

theorem changeSupply_closed {cfg : Settings} {cap : Option Nat} {p : Plant} (was : p.spm.state = .generator) :
    changeSupply cfg cap .mains p = closedTransition cfg cap p := by
  unfold changeSupply
  rw [was]

/-- What the return of the supply does (R164). -/
theorem returnSupply_supplied (cfg : Settings) (cap : Option Nat) (next : SupplyState) (p : Plant) :
    p.Supplied (returnSupply cfg cap next p) { p.spm with state := next, settle := some cfg.timers.settle } p.fsq.hold 0 := by
  have reported := supplyReport_supplied cfg cap
    { p with spm := { p.spm with state := next, settle := some cfg.timers.settle } }
  rw [budgetFor_held (by rw [Plant.supplyHold]; exact Bool.or_true _)] at reported
  exact reported.of_same (fun _ => ⟨rfl, rfl⟩) rfl

theorem budgetFor_mains {cfg : Settings} {cap : Option Nat} {p : Plant} (mains : p.spm.state = .mains) :
    budgetFor cfg cap p =
      if p.spm.settle.isSome then 0 else min cfg.budget.mains (cap.getD cfg.budget.mains) := by
  have hold : p.supplyHold = p.spm.settle.isSome := by rw [Plant.supplyHold, mains]; rfl
  rw [budgetFor_eq, hold, mains]

theorem budgetFor_congr {cfg : Settings} {cap : Option Nat} {p q : Plant} (h : q.spm = p.spm) :
    budgetFor cfg cap q = budgetFor cfg cap p := by
  rw [budgetFor_eq, budgetFor_eq, Plant.supplyHold, Plant.supplyHold, h]

/-- What a change of supply without a break does (R165). -/
theorem closedTransition_supplied (cfg : Settings) (cap : Option Nat) (p : Plant) :
    p.Supplied (closedTransition cfg cap p) { p.spm with state := .mains } p.fsq.hold
      (if p.spm.settle.isSome then 0 else min cfg.budget.mains (cap.getD cfg.budget.mains)) := by
  have reported := supplyReport_supplied cfg cap { p with spm := { p.spm with state := .mains } }
  rw [budgetFor_mains rfl] at reported
  exact reported.of_same (fun _ => ⟨rfl, rfl⟩) rfl

/-- What a change of a contact that leaves a supply does, by the supply before it. -/
theorem changeSupplyInput_supplied (cfg : Settings) (cap : Option Nat) (i : SupplyInput) (b : Bool) (p : Plant)
    (hold : p.HoldOk) :
    let x := p.spm.setLevel i b
    let new := decodeSupply x.mainsHealthy x.generatorOnline
    let t := changeSupplyInput cfg cap i b p
    new ≠ .transfer → new ≠ p.spm.state →
      (p.spm.state = .transfer ∨ p.spm.state = .mains →
        p.Supplied t { x with state := new, settle := some cfg.timers.settle } true 0) ∧
      (p.spm.state = .generator → p.Supplied t { x with state := .mains } p.fsq.hold
        (if p.spm.settle.isSome then 0 else min cfg.budget.mains (cap.getD cfg.budget.mains))) := by
  intro x new t some changed
  have made : t = changeSupply cfg cap new { p with spm := x } := rfl
  have state : x.state = p.spm.state := Spm.setLevel_state ..
  have settle : x.settle = p.spm.settle := Spm.setLevel_settle ..
  refine ⟨?_, fun generator => ?_⟩
  · rintro (transfer | mains)
    · have held : p.fsq.hold = true := hold.2.1.trans (by rw [Plant.supplyHold, transfer]; rfl)
      rw [made, changeSupply_returned (state.trans transfer) some, ← held]
      exact (returnSupply_supplied cfg cap new { p with spm := x }).of_same (fun _ => ⟨rfl, rfl⟩) rfl
    · have generator : new = .generator := by
        rw [mains] at changed
        cases known : new with
        | mains => exact absurd known changed
        | generator => rfl
        | transfer => exact absurd known some
      have first := enterTransfer_supplied cfg cap { p with spm := x }
      have second := returnSupply_supplied cfg cap .generator (enterTransfer cfg cap { p with spm := x })
      rw [first.spm, first.hold] at second
      rw [made, generator, changeSupply_switched (state.trans mains)]
      exact second.of_same first.zones first.fireOrder
  · have mains : new = .mains := by
      rw [generator] at changed
      cases known : new with
      | mains => rfl
      | generator => exact absurd known changed
      | transfer => exact absurd known some
    rw [made, mains, changeSupply_closed (state.trans generator), ← settle]
    exact (closedTransition_supplied cfg cap { p with spm := x }).of_same (fun _ => ⟨rfl, rfl⟩) rfl

theorem budgetFor_settled {cfg : Settings} {cap : Option Nat} {p : Plant} (settled : p.spm.settle = none)
    (state : p.spm.state ≠ .transfer) : budgetFor cfg cap p = if p.spm.state = .generator then cfg.budget.generator
      else min cfg.budget.mains (cap.getD cfg.budget.mains) := by
  have free : p.supplyHold = false := by simp [Plant.supplyHold, settled, state]
  rw [budgetFor_eq, free, if_neg (by decide)]
  cases known : p.spm.state with
  | mains => rfl
  | generator => rfl
  | transfer => exact absurd known state

/-- What the end of the settle delay does (R123, R164). -/
theorem endSettle_spec (cfg : Settings) (cap : Option Nat) (p : Plant) :
    let t := endSettle cfg cap p
    t.spm = { p.spm with settle := none } ∧ t.fsq.hold = false ∧
      t.gal.budget = budgetFor cfg cap { p with spm := { p.spm with settle := none } } ∧
      (∀ z, (t.zones.get z).claims = (p.zones.get z).claims ∧ t.dampers.get z = p.dampers.get z) ∧
      t.fireOrder = p.fireOrder := by
  intro t
  have tested := (testQueue_chain cfg { p with spm := { p.spm with settle := none }, fsq := { p.fsq with hold := false } }).same
  have final : (setBudgetInForce cfg cap (testQueue cfg
      { p with spm := { p.spm with settle := none }, fsq := { p.fsq with hold := false } })).SameFireSide t :=
    supplyReport_same cfg cap _
  have budget := budgetFor_congr (cfg := cfg) (cap := cap) tested.spm
  generalize testQueue cfg { p with spm := { p.spm with settle := none }, fsq := { p.fsq with hold := false } } = q at *
  exact ⟨final.spm.trans tested.spm, final.hold.trans tested.hold,
    final.budget.trans (budget.trans (budgetFor_congr rfl)), fun z => ⟨(final.claims z).trans (tested.claims z),
      congrArg (PerZone.get · z) (final.dampers.trans tested.dampers)⟩, final.fireOrder.trans tested.fireOrder⟩

/-- Settles O60. -/
theorem returnedSupplySettles : Obligations.ReturnedSupplySettles := by
  refine ⟨fun s i b h ok some changed => ?_, fun s h due state => ?_⟩
  · obtain ⟨t, ran, plant, only⟩ := exec_plant h (c := .supplyInputChange i b)
      (f := fun s => changeSupplyInput s.cfg s.bli.cap i b) rfl rfl
    have after : t.plant.HoldOk := by
      rw [plant]
      exact (changeSupplyInput_moves s.cfg s.bli.cap i b s.plant).keeps PlantMove.holdOk ok
    obtain ⟨settles, closed⟩ := changeSupplyInput_supplied s.cfg s.bli.cap i b s.plant ok some changed
    rw [← plant] at settles closed
    have either : (∃ spm hold budget, s.plant.Supplied t.plant spm hold budget) := by
      cases state : s.plant.spm.state with
      | transfer => exact ⟨_, _, _, settles (.inl state)⟩
      | mains => exact ⟨_, _, _, settles (.inr state)⟩
      | generator => exact ⟨_, _, _, closed state⟩
    obtain ⟨_, _, _, supplied⟩ := either
    refine ⟨t, ran, supplied.event, supplied.zones, supplied.fireOrder, only, fun was => ?_, fun was => ?_⟩
    · have done := settles was
      exact ⟨done.spm, done.hold, done.budget, fun f => (after.2.2.2 done.hold).2 f⟩
    · have done := closed was
      exact ⟨done.spm, done.hold, done.budget⟩
  · have ended := endSettle_spec s.cfg s.bli.cap s.plant
    generalize own : endSettle s.cfg s.bli.cap s.plant = q at ended
    obtain ⟨spm, hold, budget, zones, fireOrder⟩ := ended
    have expires : s.expireSettle = s.onPlant fun _ => q := by
      rw [State.expireSettle, if_pos due, State.onPlant, own]
      rfl
    obtain ⟨t, ran, plant, only⟩ : ∃ t, exec .settleExpiry s = .next t ∧ t.plant = q ∧
        t = { s with plant := t.plant, pins := t.pins } :=
      ⟨_, exec_handled h (c := .settleExpiry) rfl expires, rfl, rfl⟩
    rw [← plant] at spm hold budget zones fireOrder
    exact ⟨t, ran, spm, hold, budget.trans (budgetFor_settled rfl state), zones, fireOrder, only⟩

end Sys2Proof.Machine

/-! Retries of a fire start, the trip under a fire override that clears, and the ramp. -/

namespace Sys2Proof.Machine

/-! ## The trip under a fire override that clears (R154) -/

theorem Plant.failFan_other (p : Plant) {f g : Fan} (other : g ≠ f) (c : TripCause) : (p.failFan f c).1.fan g = p.fan g := by
  have trip (q : Plant) (same : q.fan g = p.fan g) : (q.trip f c).1.fan g = p.fan g :=
    (Plant.setFan_fan_other q other _).trans same
  unfold Plant.failFan
  dsimp only
  split
  · split
    · dsimp only
      rw [Plant.fan, Plant.join_fans]
      exact (Plant.setFan_fan_other _ other _).trans (Plant.setFan_fan_other p other _)
    · exact trip _ (Plant.setFan_fan_other p other _)
  · exact trip p rfl

theorem setOverride_other (x : Reported) {f g : Fan} (other : g ≠ f) : (setOverride x f).1.fan g = x.1.fan g := by
  unfold setOverride
  dsimp only
  split
  · exact (Plant.failFan_other _ other _).trans (Plant.setFan_fan_other x.1 other _)
  · exact Plant.setFan_fan_other x.1 other _

theorem setOverrides_other {l : List Fan} {f : Fan} (out : f ∉ l) (x : Reported) :
    (l.foldl setOverride x).1.fan f = x.1.fan f := by
  induction l generalizing x with
  | nil => rfl
  | cons g gs ih =>
    rw [List.mem_cons, not_or] at out
    exact (ih out.2 _).trans (setOverride_other x out.1)

/-- The override of a fan without its fire flag clears over its drive fault: the fan trips. -/
theorem setOverride_uncovered {x : Reported} {f : Fan} (fire : (x.1.fan f).fire = false)
    (uncovered : (x.1.fan f).uncovered = true) :
    (setOverride x f).1.fan f = (x.1.fan f).overridden.tripped .driveFault ∧
      (setOverride x f).1.events.fanTrip = true := by
  have fails := Plant.failFan_trips (p := x.1) (f := f) (r := (x.1.fan f).overridden) (cause := .driveFault) (.inl fire)
  have made : setOverride x f = (((x.1.setFan f (x.1.fan f).overridden).failFan f .driveFault).1,
      x.2 ++ ((x.1.setFan f (x.1.fan f).overridden).failFan f .driveFault).2) := if_pos uncovered
  rw [made, fails]
  exact ⟨Plant.setFan_fan_self .., rfl⟩

theorem setOverrides_uncovered {x : Reported} {f : Fan} (fire : (x.1.fan f).fire = false)
    (uncovered : (x.1.fan f).uncovered = true) :
    (Fan.all.foldl setOverride x).1.fan f = (x.1.fan f).overridden.tripped .driveFault ∧
      (Fan.all.foldl setOverride x).1.events.fanTrip = true := by
  obtain ⟨before, after, split⟩ := List.append_of_mem (Fan.mem_all f)
  have nodup := Fan.all_nodup
  rw [split] at nodup ⊢
  have apart : f ∉ before ∧ f ∉ after := by
    rw [List.nodup_middle, List.nodup_cons, List.mem_append, not_or] at nodup
    exact nodup.1
  rw [List.foldl_append, List.foldl_cons]
  have reached := setOverrides_other apart.1 x
  rw [← reached] at fire uncovered ⊢
  obtain ⟨record, event⟩ := setOverride_uncovered fire uncovered
  exact ⟨(setOverrides_other apart.2 _).trans record, (Plant.FsqOnly.setOverrides after _).events .fanTrip event⟩

/-- After a pass every fire-override output is right, whatever it was before. -/
theorem runPass_overrideOk (cfg : Settings) (p : Plant) : (runPass cfg p).OverrideOk := by
  have handed := fsqPass_overrideOk cfg (allocate cfg p).grants (recordPass (allocate cfg p) p)
  unfold runPass passes
  dsimp only
  generalize fsqPass cfg (allocate cfg p).grants (recordPass (allocate cfg p) p) = x at handed ⊢
  have kept := ((refreshStatus_kept cfg x.1).trans (rotate_kept cfg p.gal.groups (allocate cfg p).groups _)).trans
    (Plant.Kept.foldl (fun q f => (sendToBack_kept cfg f q).trans (passes_kept cfg 12 _)) x.2 _)
  exact kept.override handed

/-- What follows the overrides in a pass are moves of the fan side. -/
theorem runPass_tail (cfg : Settings) (p : Plant) : FanChain cfg
    (Fan.all.foldl setOverride
      (retest cfg (reclass (grantAll cfg (allocate cfg p).grants Fan.all (p.recorded cfg))), [])).1 (runPass cfg p) := by
  have pass := fsqPass_eq cfg (allocate cfg p).grants (recordPass (allocate cfg p) p)
  rw [← Plant.recorded] at pass
  unfold runPass passes
  dsimp only at pass ⊢
  rw [pass]
  generalize Fan.all.foldl setOverride
    (retest cfg (reclass (grantAll cfg (allocate cfg p).grants Fan.all (p.recorded cfg))), []) = x
  exact (((queueTest_chain cfg x.1).trans (refreshStatus_chain cfg _)).trans (rotate_chain cfg _ _ _)).trans
    (foldl_chain (fun q f => (sendToBack_chain cfg f q).trans (passes_chain cfg 12 _)) _ _)

theorem FanRec.granted_served {coast : Nat} {g : Grant} {r : FanRec} (service : r.state.inService = true)
    (some : 0 < g.target) : r.granted coast g = { r with target := g.target, fire := g.fire } := by
  cases state : r.state <;> simp_all [FanRec.granted, FanState.inService, some.ne']

theorem runPass_trips {cfg : Settings} {p : Plant} {f : Fan} (ok : p.QueueOk) (service : (p.fan f).state.inService = true)
    (override : (p.fan f).fireOverride = true) (fault : (p.fan f).driveFault = true)
    (some : 0 < ((allocate cfg p).grants.get f).target) (clears : ((allocate cfg p).grants.get f).fire = false) :
    let t := runPass cfg p
    (t.fan f).state = .tripped ∧ (t.fan f).cause = .driveFault ∧ (t.fan f).run = false ∧ (t.fan f).output = 0 ∧
      (t.fan f).fireOverride = false ∧ t.events.fanTrip = true := by
  dsimp only
  have tail := runPass_tail cfg p
  have right := runPass_overrideOk cfg p
  generalize runPass cfg p = t at tail right ⊢
  have fsq := p.recorded_fsq cfg
  generalize p.recorded cfg = p1 at tail fsq
  have fan1 (g : Fan) : p1.fan g = p.fan g := by rw [Plant.fan, fsq]; rfl
  have ok1 : p1.QueueOk := ok.of_same (by rw [fsq]) (by rw [fsq]) (by rw [fsq]; exact ok.2.2.2.2.2) fun g => by rw [fan1]
  have granted : (grantAll cfg (allocate cfg p).grants Fan.all p1).fan f = { p.fan f with
      target := ((allocate cfg p).grants.get f).target, fire := false } := by
    rw [grantAll_fan cfg _ Fan.all_nodup, if_pos (Fan.mem_all f), fan1, FanRec.granted_served service some, clears]
  have ok2 : (grantAll cfg (allocate cfg p).grants Fan.all p1).QueueOk :=
    (foldl_chain (fun q g => applyGrant_chain cfg q g _) Fan.all p1).queueOk ok1
  generalize grantAll cfg (allocate cfg p).grants Fan.all p1 = p2 at tail granted ok2
  have record : (retest cfg (reclass p2)).fan f = { p.fan f with
      target := ((allocate cfg p).grants.get f).target, fire := false } := by
    rw [Plant.fan, retest_fans]
    exact granted
  have ok3 := (setOverrides_chain cfg Fan.all (retest cfg (reclass p2), [])).queueOk (FanMove.reorder.queueOk (cfg := cfg) ok2)
  obtain ⟨trips, event⟩ := setOverrides_uncovered (x := (retest cfg (reclass p2), [])) (f := f)
    (congrArg FanRec.fire record) (by
      dsimp only
      rw [record]
      simp [FanRec.uncovered, override, service, fault])
  dsimp only at trips
  generalize Fan.all.foldl setOverride (retest cfg (reclass p2), []) = x at tail ok3 trips event
  have mark := tail.mark ok3 (f := f) (by rw [trips]; rfl)
  rw [trips] at mark
  obtain ⟨state, cause, output, -, run⟩ := FanRec.mark_eq.mp mark
  refine ⟨state, cause, run, output, ?_, tail.same.events .fanTrip event⟩
  rw [right f, run]
  rfl

/-- Settles O57. -/
theorem fireFansRetryTheirStart : Obligations.FireFansRetryTheirStart := by
  refine ⟨fun s c f cause h fails fire early => fails.retries h fire early, fun s t before stepped power => ?_,
    fun p f sorted fresh => Plant.join_eq f sorted fresh,
    fun cfg p f ok _ service override fault some clears => runPass_trips ok service override fault some clears⟩
  obtain ⟨cs, ended⟩ := step_ended stepped
  exact ended.override power before

/-! ## The ramp period (R150) -/

theorem testQueue_empty {cfg : Settings} {p : Plant} (queue : p.fsq.queue = []) (staged : p.fsq.staged = none) :
    testQueue cfg p = refreshStatus cfg p := by
  have head : stageHead cfg p = p := by
    rw [stageHead_unstaged staged fun _ => queue, Plant.wanted, queue, ← staged, Plant.stage_staged]
  rw [testQueue, queueTest_rests (.inl (by rw [head]; exact staged)), head]
  rfl

theorem FanState.ramped_iff (x : FanState) : x.ramped = true ↔ x = .proving ∨ x = .running := by
  cases x <;> decide

theorem FanRec.lowered_eq (step : Nat) (r : FanRec) : r.lowered step =
    if (r.state = .proving ∨ r.state = .running) ∧ r.target < r.output then max r.target (r.output - step)
    else r.output := by
  simp only [FanRec.lowered, rampDown, FanState.ramped_iff, ite_and]

theorem FanRec.ramped_eq (step : Nat) (room : Prop) [Decidable room] (r : FanRec) : r.ramped step (decide room) =
    if (r.state = .proving ∨ r.state = .running) ∧ r.output < r.target ∧ (r.fire = true ∨ room) then
      min r.target (r.output + step) else r.lowered step := by
  have same : (r.state.ramped && decide (r.output < r.target) && (r.fire || decide room)) = true ↔
      (r.state = .proving ∨ r.state = .running) ∧ r.output < r.target ∧ (r.fire = true ∨ room) := by
    simp [FanState.ramped_iff, and_assoc]
  unfold FanRec.ramped
  by_cases rises : (r.state = .proving ∨ r.state = .running) ∧ r.output < r.target ∧ (r.fire = true ∨ room)
  · rw [if_pos (same.mpr rises), if_pos rises, rampUp, if_pos rises.2.1]
  · rw [if_neg (mt same.mp rises), if_neg rises]

theorem tickSpacing_eq (x : Option Nat) : tickSpacing x =
    match x with
    | some n => if 1 < n then some (n - 1) else none
    | none => none := by
  cases x with
  | none => rfl
  | some n =>
    by_cases more : 1 < n
    · exact (if_neg (Nat.not_le.mpr more)).trans (if_pos more).symm
    · exact (if_pos (Nat.not_lt.mp more)).trans (if_neg more).symm

/-- Settles O58. -/
theorem rampMovesOutputsTowardTargets : Obligations.RampMovesOutputsTowardTargets := by
  refine ⟨fun s h => ?_, rfl, fun n => rfl⟩
  have only := s.plant.ramped_eq s.cfg
  have fan (f : Fan) := ramp_fan s.cfg s.plant.tick f
  have same := (testQueue_chain s.cfg (ramp s.cfg s.plant.tick)).same
  have rest (queue : s.plant.fsq.queue = []) (staged : s.plant.fsq.staged = none) :
      testQueue s.cfg (ramp s.cfg s.plant.tick) = refreshStatus s.cfg (ramp s.cfg s.plant.tick) :=
    testQueue_empty (by rw [only]; exact queue) (by rw [only]; exact staged)
  obtain ⟨t, ran, plant, scn, fev, whole⟩ : ∃ t, exec .rampPeriodEnd s = .next t ∧
      t.plant = testQueue s.cfg (ramp s.cfg s.plant.tick) ∧ t.scn = s.scn.tick ∧ t.fev = s.fev.tick ∧ t = { s with
        plant := t.plant, scn := t.scn, fev := t.fev, pins := t.pins
        fif := { s.fif with timer := tickTimer s.fif.timer }, bli := { s.bli with timer := tickTimer s.bli.timer } } :=
    ⟨_, exec_handled h (c := .rampPeriodEnd) (f := State.rampPeriod) rfl rfl, rfl, rfl, rfl, rfl⟩
  rw [← plant] at same rest
  generalize ramp s.cfg s.plant.tick = p at only fan same rest
  refine ⟨t, ran, fun z => ?_, ?_, fun z => ?_, fun c => ?_, fun z => ?_, scn, fun queue staged => ⟨?_, fun f => ?_⟩, whole⟩
  · rw [same.dampers, only]
    exact PerZone.get_build ..
  · rw [same.spm, only]
    rfl
  · exact ⟨(same.claims z).trans (by rw [only]; rfl), (same.result z).trans (by rw [only]; rfl)⟩
  · rw [State.eval, fev]
    exact PerChannel.get_build ..
  · rw [fev]
    exact PerZone.get_build ..
  · rw [rest queue staged, refreshStatus_fsq, only]
    exact tickSpacing_eq _
  · have lowered (g : Fan) : (s.plant.tick.fan g).lowered s.cfg.timers.rampStep =
        if ((s.plant.fan g).state = .proving ∨ (s.plant.fan g).state = .running) ∧
          (s.plant.fan g).target < (s.plant.fan g).output
        then max (s.plant.fan g).target ((s.plant.fan g).output - s.cfg.timers.rampStep) else (s.plant.fan g).output := by
      rw [FanRec.lowered_eq, Plant.tick_fan]
    have fits : committed s.cfg (lowerOutputs s.cfg s.plant.tick) = drawn s.cfg (lowerOutputs s.cfg s.plant.tick) :=
      committed_unstaged staged
    have sum : drawn s.cfg (lowerOutputs s.cfg s.plant.tick) =
        (Fan.all.map fun g => if (s.plant.fan g).state.inService then power (s.cfg.fans.rated.get g)
          (max ((s.plant.tick.fan g).lowered s.cfg.timers.rampStep) (s.plant.fan g).target) else 0).sum := by
      simp only [drawn, lowerOutputs_fan, Plant.tick_fan]
    have record : t.plant.fan f = p.fan f := by rw [rest queue staged, Plant.fan, refreshStatus_fsq]; rfl
    simp only [lowered] at sum
    rw [record, fan, FanRec.ramped_eq, lowered, fits, sum, Plant.tick_fan]
    rfl

end Sys2Proof.Machine

/-! The allocation: stage 1, the classes in their order, the grants. -/

namespace Sys2Proof.Machine

/-! ## Sums over a class -/

theorem sum_map_filter {α : Type} (l : List α) (p : α → Bool) (f : α → Nat) :
    ((l.filter p).map f).sum = (l.map fun a => if p a = true then f a else 0).sum := by
  induction l with
  | nil => rfl
  | cons a l ih =>
    by_cases h : p a = true
    · simp [List.filter_cons_of_pos h, ih, h]
    · simp [List.filter_cons_of_neg h, ih, h]

theorem total_ofClass (rs : PerGroup GroupRec) (cls : GroupClass) (f : Group → Nat) :
    total ((ofClass rs cls).map f) = (Group.all.map fun g => if (rs.get g).cls = cls then f g else 0).sum := by
  rw [total_eq_sum, ofClass, sum_map_filter]
  simp only [beq_iff_eq]

/-- The power of the first `kept` chosen fans of every group of a class at a speed of each group. -/
def sumAt (cfg : Settings) (cls : GroupClass) (rs : PerGroup GroupRec) (kept v : Group → Nat) : Nat :=
  (Group.all.map fun g => if (rs.get g).cls = cls then
    (((rs.get g).chosen.take (kept g)).map fun c => power (cfg.fans.rated.get c.fan) (v g)).sum else 0).sum

theorem classPower_eq (cfg : Settings) (rs : PerGroup GroupRec) (cls : GroupClass) (v : Group → Nat) :
    classPower cfg rs cls v = sumAt cfg cls rs (fun g => (rs.get g).chosen.length) v := by
  rw [classPower, total_ofClass, sumAt]
  simp only [groupPower_eq_sum]

/-! ## The classes in their order (R125, R126) -/

/-- The records of stage 1. -/
def stageOnes (cfg : Settings) (p : Plant) : PerGroup GroupRec := .build (stageOne cfg p)

@[simp] theorem stageOnes_get (cfg : Settings) (p : Plant) (g : Group) : (stageOnes cfg p).get g = stageOne cfg p g :=
  PerGroup.get_build ..

/-- The records with the fire class granted in full. -/
def fireGranted (cfg : Settings) (p : Plant) : PerGroup GroupRec :=
  mapClass (stageOnes cfg p) .fire fun _ r => r.grant r.chosen.length r.speed .none

/-- What the fire class draws. -/
def fireDraw (cfg : Settings) (p : Plant) : Nat :=
  classPower cfg (stageOnes cfg p) .fire fun g => ((stageOnes cfg p).get g).speed

section
variable {cfg : Settings} {p : Plant}

/-- The records and the remainder after the class HIGH. -/
def highServed (cfg : Settings) (p : Plant) : PerGroup GroupRec × Nat :=
  serveClass cfg .high (fireGranted cfg p) (p.gal.budget - fireDraw cfg p)

/-- The records and the remainder after the class NORMAL. -/
def allServed (cfg : Settings) (p : Plant) : PerGroup GroupRec × Nat :=
  serveClass cfg .normal (highServed cfg p).1 (highServed cfg p).2

/-- The outcome of a pass with its records. -/
def Pass.of (all : PerGroup GroupRec) (fireShort : Bool) : Pass where
  groups := all
  grants := .build (grantOf all)
  fireShort := fireShort
  short := fireShort || Group.all.any fun g => (all.get g).curtailment != .none

@[simp] theorem Pass.of_groups (all : PerGroup GroupRec) (fireShort : Bool) : (Pass.of all fireShort).groups = all := rfl

@[simp] theorem Pass.of_grants (all : PerGroup GroupRec) (fireShort : Bool) (f : Fan) :
    (Pass.of all fireShort).grants.get f = grantOf all f := PerFan.get_build ..

theorem allocate_free (free : p.supplyHold = false) :
    allocate cfg p = Pass.of (allServed cfg p).1 (decide (p.gal.budget < fireDraw cfg p)) := by
  unfold allocate
  dsimp only
  rw [if_neg (Bool.not_eq_true _ ▸ free)]
  rfl

theorem allocate_held (held : p.supplyHold = true) : allocate cfg p = {
    groups := stageOnes cfg p, grants := .build fun _ => { target := 0, fire := false }, fireShort := false
    short := false } := if_pos held

theorem serveClass_other {cls : GroupClass} {rs : PerGroup GroupRec} {n : Nat} {g : Group} (h : (rs.get g).cls ≠ cls) :
    (serveClass cfg cls rs n).1.get g = rs.get g := by
  obtain ⟨kept, v, c, made⟩ := serveClass_get cfg cls rs n g
  rw [made, if_neg h]

/-- A chosen fan with another speed granted. -/
def Chosen.granting (v : Nat) (c : Chosen) : Chosen := { c with granted := v }

/-- The part of a record that grants leave as it is. -/
def GroupRec.stage (r : GroupRec) : GroupRec := { r with chosen := r.chosen.map (Chosen.granting 0), curtailment := .none }

theorem GroupRec.grant_eq (r : GroupRec) (kept v : Nat) (c : Curtailment) : r.grant kept v c = { r with
    chosen := (r.chosen.take kept).map (Chosen.granting v) ++ (r.chosen.drop kept).map (Chosen.granting 0)
    curtailment := c } := rfl

theorem GroupRec.grant_stage (r : GroupRec) (kept v : Nat) (c : Curtailment) : (r.grant kept v c).stage = r.stage := by
  have same : ((r.chosen.take kept).map (Chosen.granting v) ++ (r.chosen.drop kept).map (Chosen.granting 0)).map
      (Chosen.granting 0) = r.chosen.map (Chosen.granting 0) := by
    rw [List.map_append, List.map_map, List.map_map]
    conv_rhs => rw [← List.take_append_drop kept r.chosen, List.map_append]
    rfl
  rw [GroupRec.stage, GroupRec.stage, GroupRec.grant_eq]
  dsimp only
  rw [same]

theorem stageOne_chosen (cfg : Settings) (p : Plant) (g : Group) :
    (stageOne cfg p g).chosen.map (Chosen.granting 0) = (stageOne cfg p g).chosen := List.map_map ..

theorem stageOne_stage (cfg : Settings) (p : Plant) (g : Group) : (stageOne cfg p g).stage = stageOne cfg p g := by
  rw [GroupRec.stage, stageOne_chosen]
  rfl

theorem allocate_stage (cfg : Settings) (p : Plant) (g : Group) :
    ((allocate cfg p).groups.get g).stage = stageOne cfg p g := by
  rcases allocate_group cfg p g with same | ⟨kept, v, c, made⟩
  · rw [same, stageOne_stage]
  · rw [made, GroupRec.grant_stage, stageOne_stage]

theorem allocate_fire (free : p.supplyHold = false) {g : Group} (fire : (stageOne cfg p g).cls = .fire) :
    (allocate cfg p).groups.get g =
      (stageOne cfg p g).grant (stageOne cfg p g).chosen.length (stageOne cfg p g).speed .none := by
  have granted : (fireGranted cfg p).get g =
      (stageOne cfg p g).grant (stageOne cfg p g).chosen.length (stageOne cfg p g).speed .none := by
    rw [fireGranted, mapClass_get, stageOnes_get, if_pos fire]
  have own : ((fireGranted cfg p).get g).cls = .fire := by rw [granted]; exact fire
  have high : (highServed cfg p).1.get g = (fireGranted cfg p).get g := serveClass_other (own.trans_ne (by decide))
  have all : (allServed cfg p).1.get g = (highServed cfg p).1.get g :=
    serveClass_other (by rw [high]; exact own.trans_ne (by decide))
  rw [allocate_free free, ← granted, ← high, ← all, Pass.of_groups]

end

/-! ## Stage 1 (R113, R118, R120, R121) -/

theorem ZoneResult.fireClass_iff (r : ZoneResult) :
    r.fireClass = true ↔ (r.level = some 6 ∨ r.level = some 7) ∧ r.kind = some .exhaust := by
  simp [ZoneResult.fireClass]

theorem stageOne_counted (cfg : Settings) (p : Plant) (g : Group) (z : Zone) :
    z ∈ (stageOne cfg p g).counted ↔ cfg.zones.group.get z = g ∧
      ((p.zones.get z).result.fireClass = true ∧ (p.dampers.get z).commandOpen = true ∨
        ¬(p.zones.get z).result.fireClass = true ∧ (p.dampers.get z).state = .opened) := by
  have member : z ∈ (stageOne cfg p g).counted ↔ cfg.zones.group.get z = g ∧ p.counted z = true := by
    simp [stageOne, Settings.groupZones, and_comm]
  rw [member, Plant.counted, countedZone]
  cases (p.zones.get z).result.fireClass <;> simp

theorem stageOne_demand (cfg : Settings) (p : Plant) (g : Group) : (stageOne cfg p g).demand =
    largest ((stageOne cfg p g).counted.map fun z => (p.zones.get z).result.demand) := by
  rw [stageOne]
  dsimp only
  rw [List.map_map]
  rfl

theorem classOf_fire {l : List ZoneResult} : classOf l = .fire ↔ ∃ r ∈ l, r.fireClass = true := by
  rw [classOf, ← List.any_eq_true]
  split
  · rename_i any
    simp [any]
  · rename_i none
    split <;> simp [none]

theorem classOf_high {l : List ZoneResult} : classOf l = .high ↔
    (∀ r ∈ l, ¬r.fireClass = true ∧ r.level.getD 0 ≤ 4) ∧ ∃ r ∈ l, r.level = some 4 := by
  have four (r : ZoneResult) : r.level.getD 0 = 4 ↔ r.level = some 4 := by cases r.level <;> simp
  by_cases fire : ∃ r ∈ l, r.fireClass = true
  · rw [classOf_fire.mpr fire]
    obtain ⟨r, mem, fire⟩ := fire
    exact iff_of_false (by decide) fun h => (h.1 r mem).1 fire
  · have none : ¬ l.any ZoneResult.fireClass = true := mt List.any_eq_true.mp fire
    rw [not_exists] at fire
    rw [classOf, if_neg none]
    constructor
    · intro high
      have most : largest (l.map fun r => r.level.getD 0) = 4 := by
        by_contra other
        rw [if_neg other] at high
        exact absurd high (by decide)
      refine ⟨fun r mem => ⟨fun is => fire r ⟨mem, is⟩, most ▸ le_largest (List.mem_map.mpr ⟨r, mem, rfl⟩)⟩, ?_⟩
      rcases largest_map_eq (fun r : ZoneResult => r.level.getD 0) l with zero | ⟨r, mem, reached⟩
      · exact absurd (zero.symm.trans most) (by decide)
      · exact ⟨r, mem, (four r).mp (reached.trans most)⟩
    · rintro ⟨atMost, r, mem, level⟩
      have low : 4 ≤ largest (l.map fun r => r.level.getD 0) :=
        (four r).mpr level ▸ le_largest (List.mem_map.mpr ⟨r, mem, rfl⟩)
      have high : largest (l.map fun r => r.level.getD 0) ≤ 4 := by
        rcases largest_map_eq (fun r : ZoneResult => r.level.getD 0) l with zero | ⟨r, mem, reached⟩
        · omega
        · exact reached ▸ (atMost r mem).2
      rw [if_pos (le_antisymm high low)]

theorem ceilDiv_unique {n d k : Nat} (low : n ≤ d * k) (high : d * k < n + d) : ceilDiv n d = k := by
  have pos : 0 < d := by
    rcases Nat.eq_zero_or_pos d with rfl | pos
    · simp at low high
      omega
    · exact pos
  have low' := le_ceilDiv_mul n pos
  have high' := ceilDiv_mul_lt n pos
  rw [Nat.mul_comm] at low' high'
  refine le_antisymm (Nat.le_of_lt_succ (Nat.lt_of_mul_lt_mul_left (a := d) ?_))
    (Nat.le_of_lt_succ (Nat.lt_of_mul_lt_mul_left (a := d) ?_)) <;> rw [Nat.mul_succ] <;> omega

theorem wishOf_none {d i a v : Nat} (h : d = 0 ∨ i = 0) : wishOf d i a v = (0, 0) := by
  unfold wishOf
  rcases h with rfl | rfl
  · rfl
  · split
    · rfl
    · rw [Nat.mul_zero]
      rfl

theorem wishOf_some {d i a v k : Nat} (demand : 0 < d) (installed : 0 < i) (low : d * i ≤ 100 * k)
    (high : 100 * k < d * i + 100) : wishOf d i a v = if a < k then (a, 100) else (k, max v (ceilDiv (d * i) k)) := by
  have pos : 0 < d * i := Nat.mul_pos demand installed
  have count : ceilDiv (d * i) 100 = k := ceilDiv_unique low high
  unfold wishOf
  dsimp only
  rw [if_neg demand.ne', count, if_neg (by omega)]

/-! ## The grants (R129) -/

theorem stageOne_fans (cfg : Settings) (p : Plant) (g : Group) :
    (stageOne cfg p g).chosen.map Chosen.fan = (p.availableFans g).take (stageOne cfg p g).count := by
  rw [stageOne]
  dsimp only
  rw [List.map_map]
  exact List.map_id _

theorem allocate_fans (cfg : Settings) (p : Plant) (g : Group) : ((allocate cfg p).groups.get g).chosen.map Chosen.fan =
    (p.availableFans g).take (stageOne cfg p g).count := by
  rw [← stageOne_fans, ← allocate_stage, GroupRec.stage]
  dsimp only
  rw [List.map_map]
  rfl

theorem find?_chosen {l : List Chosen} {c : Chosen} (mem : c ∈ l) (nodup : (l.map Chosen.fan).Nodup) :
    (l.find? fun x => x.fan == c.fan) = some c := by
  obtain ⟨before, after, rfl⟩ := List.append_of_mem mem
  rw [List.map_append, List.map_cons, List.nodup_middle, List.nodup_cons, List.mem_append, not_or] at nodup
  refine List.find?_eq_some_iff_append.mpr ⟨by simp, before, after, rfl, fun x ahead => ?_⟩
  have other : x.fan ≠ c.fan := fun same => nodup.1.1 (List.mem_map.mpr ⟨x, ahead, same⟩)
  simpa using other

theorem grantOf_chosen {rs : PerGroup GroupRec} {g : Group} {c : Chosen} (mem : c ∈ (rs.get g).chosen)
    (nodup : ((rs.get g).chosen.map Chosen.fan).Nodup)
    (others : ∀ h, h ≠ g → ∀ x ∈ (rs.get h).chosen, x.fan ≠ c.fan) : grantOf rs c.fan =
      { target := c.granted, fire := decide (0 < c.granted) && (rs.get g).cls == .fire } := by
  obtain ⟨before, after, split⟩ := List.append_of_mem (Group.mem_all g)
  have order := Group.all_nodup
  rw [split, List.nodup_middle, List.nodup_cons, List.mem_append, not_or] at order
  rw [grantOf, List.findSome?_eq_some_iff.mpr ⟨before, g, after, split, by rw [find?_chosen mem nodup]; rfl, fun h ahead => ?_⟩]
  · rfl
  · rw [Option.map_eq_none_iff, List.find?_eq_none]
    intro x chosen
    have other := others h (fun same => order.1.1 (same ▸ ahead)) x chosen
    simpa using other

theorem grantOf_unchosen {rs : PerGroup GroupRec} {f : Fan} (none : ∀ g, ∀ c ∈ (rs.get g).chosen, c.fan ≠ f) :
    grantOf rs f = { target := 0, fire := false } := by
  have nowhere : (Group.all.findSome? fun g => ((rs.get g).chosen.find? fun c => c.fan == f).map fun c =>
      ({ target := c.granted, fire := decide (0 < c.granted) && (rs.get g).cls == .fire } : Grant)) = .none := by
    rw [List.findSome?_eq_none_iff]
    intro g _
    rw [Option.map_eq_none_iff, List.find?_eq_none]
    intro c mem
    simpa using none g c mem
  rw [grantOf, nowhere]
  rfl

theorem allocate_grants {cfg : Settings} {p : Plant} (free : p.supplyHold = false) (f : Fan) :
    (allocate cfg p).grants.get f = grantOf (allocate cfg p).groups f := by
  rw [allocate_free free, Pass.of_grants, Pass.of_groups]

/-! ## Duty orders (R117) -/

theorem sendBack_eq (f : Fan) (duty : List Fan) :
    sendBack f duty = if f ∈ duty then duty.filter (fun x => x != f) ++ [f] else duty := by
  simp only [sendBack, List.contains_iff_mem]

theorem sendToBack_duty (cfg : Settings) (f : Fan) (p : Plant) (g : Group) :
    ((sendToBack cfg f p).gal.groups.get g).duty =
      if cfg.fans.group.get f = some g ∧ f ∈ (p.gal.groups.get g).duty then
        (p.gal.groups.get g).duty.filter (fun x => x != f) ++ [f] else (p.gal.groups.get g).duty := by
  unfold sendToBack
  split
  · rename_i own assigned
    rw [setDuty_duty, assigned]
    by_cases same : g = own
    · rw [if_pos same, sendBack_eq, same]
      simp only [true_and]
    · rw [if_neg same, if_neg fun both => same (Option.some.inj both.1).symm]
  · rename_i none
    rw [none, if_neg fun both => nomatch both.1]

theorem rebuildDuty_eq (cfg : Settings) (g : Group) (duty : List Fan) : rebuildDuty cfg g duty =
    (duty.filter fun f => cfg.fans.group.get f == some g) ++
      Fan.all.filter fun f => cfg.fans.group.get f == some g && !duty.contains f := by
  rw [rebuildDuty, Settings.groupFans, List.filter_filter]
  congr 1
  refine List.filter_congr fun f _ => ?_
  rcases Bool.eq_false_or_eq_true (cfg.fans.group.get f == some g) with mine | other
  · have same : (duty.filter fun f => cfg.fans.group.get f == some g).contains f = duty.contains f := by
      rw [Bool.eq_iff_iff, List.contains_iff_mem, List.contains_iff_mem, List.mem_filter]
      exact and_iff_left mine
    rw [same, mine, Bool.and_true, Bool.true_and]
  · rw [other, Bool.and_false, Bool.false_and]

theorem GroupRec.grant_all (r : GroupRec) (v : Nat) (c : Curtailment) : r.grant r.chosen.length v c =
    { r with chosen := r.chosen.map (Chosen.granting v), curtailment := c } := by
  rw [GroupRec.grant_eq, List.take_length, List.drop_length]
  simp only [List.map_nil, List.append_nil]

theorem fireDraw_eq (cfg : Settings) (p : Plant) : fireDraw cfg p = (Group.all.map fun g =>
    if (stageOne cfg p g).cls = .fire then ((stageOne cfg p g).chosen.map fun c =>
      power (cfg.fans.rated.get c.fan) (stageOne cfg p g).speed).sum else 0).sum := by
  rw [fireDraw, classPower_eq, sumAt]
  simp only [stageOnes_get, List.take_length]

theorem fireGranted_get (cfg : Settings) (p : Plant) (g : Group) : (fireGranted cfg p).get g =
    if (stageOne cfg p g).cls = .fire then
      { stageOne cfg p g with chosen := (stageOne cfg p g).chosen.map (Chosen.granting (stageOne cfg p g).speed) }
    else stageOne cfg p g := by
  rw [fireGranted, mapClass_get, stageOnes_get, GroupRec.grant_all]
  rfl

/-- Stage 1 of a pass, as the records of the pass show it (R113, R118, R120, R121). -/
theorem allocate_record (cfg : Settings) (p : Plant) (g : Group) :
    let x := (allocate cfg p).groups.get g
    let r := stageOne cfg p g
    x.counted = r.counted ∧ x.demand = r.demand ∧ x.cls = r.cls ∧ x.installed = r.installed ∧ x.available = r.available ∧
      x.count = r.count ∧ x.speed = r.speed ∧ x.unserved = r.unserved ∧ x.duty = r.duty := by
  dsimp only
  rw [← allocate_stage cfg p g]
  exact ⟨rfl, rfl, rfl, rfl, rfl, rfl, rfl, rfl, rfl⟩

theorem Plant.availableFans_eq (p : Plant) (g : Group) : p.availableFans g = (p.gal.groups.get g).duty.filter fun f =>
    decide ((p.fan f).state ≠ .tripped ∧ (p.fan f).state ≠ .locked) := by
  have reach (x : FanState) : x.inReach = decide (x ≠ .tripped ∧ x ≠ .locked) := by cases x <;> rfl
  simp only [Plant.availableFans, ← reach]
  rfl

end Sys2Proof.Machine

/-! What a pass does, whole. -/

namespace Sys2Proof.Machine

section
variable {cfg : Settings} {p : Plant}

/-- The chosen fans of a group come from its duty order, each once. -/
theorem allocate_chosen (duty : ∀ g, (p.gal.groups.get g).duty.Nodup ∧
    ∀ h ∈ (p.gal.groups.get g).duty, cfg.fans.group.get h = some g) (g : Group) :
    (((allocate cfg p).groups.get g).chosen.map Chosen.fan).Nodup ∧
      ∀ c ∈ ((allocate cfg p).groups.get g).chosen, cfg.fans.group.get c.fan = some g := by
  have sub : List.Sublist (((allocate cfg p).groups.get g).chosen.map Chosen.fan) (p.gal.groups.get g).duty := by
    rw [allocate_fans]
    exact (List.take_sublist _ _).trans List.filter_sublist
  exact ⟨(duty g).1.sublist sub, fun c mem => (duty g).2 _ (sub.subset (List.mem_map.mpr ⟨c, mem, rfl⟩))⟩

/-- What the fire override outputs leave of a granted record, written out by the state. -/
theorem Plant.afterPass_eq (cfg : Settings) (p : Plant) (f : Fan) : p.afterPass cfg f =
    let r := { p.fan f with
      target := ((allocate cfg p).grants.get f).target, fire := ((allocate cfg p).grants.get f).fire }
    let moved : FanRec :=
      match r.state with
      | .off | .stopping => if r.target = 0 then r else { r with state := .queued, timer := none }
      | .queued => if r.target = 0 then { r with state := .off, output := 0, run := false, timer := none } else r
      | .starting | .proving | .running =>
        if r.target = 0 then
          { r with state := .stopping, output := 0, run := false, timer := some cfg.timers.coast }
        else r
      | .tripped | .locked => r
    { moved with fireOverride := moved.run && moved.fire } := by
  dsimp only
  rw [Plant.afterPass, FanRec.granted, FanRec.overridden]
  cases state : (p.fan f).state <;> by_cases none : ((allocate cfg p).grants.get f).target = 0 <;>
    simp [none, FanRec.release, FanRec.coastDown]

/-! ## The classes in their order (R125, R126) -/

theorem Pass.of_fireShort (all : PerGroup GroupRec) (short : Bool) : (Pass.of all short).fireShort = short := rfl

theorem allocate_classes (cfg : Settings) (p : Plant) (free : p.supplyHold = false) :
    let one : PerGroup GroupRec := .build fun g => { (allocate cfg p).groups.get g with
      chosen := ((allocate cfg p).groups.get g).chosen.map fun c => { c with granted := 0 }, curtailment := .none }
    let fire := (Group.all.map fun g => if (one.get g).cls = .fire then
      ((one.get g).chosen.map fun c => power (cfg.fans.rated.get c.fan) (one.get g).speed).sum else 0).sum
    let taken : PerGroup GroupRec := .build fun g => if (one.get g).cls = .fire then
      { one.get g with chosen := (one.get g).chosen.map fun c => { c with granted := (one.get g).speed } } else one.get g
    let high := serveClass cfg .high taken (p.gal.budget - fire)
    (allocate cfg p).groups = (serveClass cfg .normal high.1 high.2).1 ∧
      ((allocate cfg p).fireShort = true ↔ p.gal.budget < fire) := by
  intro one fire taken high
  have ones : one = stageOnes cfg p := PerGroup.ext_get fun g => by
    rw [stageOnes_get, ← allocate_stage]
    exact PerGroup.get_build ..
  have record (g : Group) : one.get g = stageOne cfg p g := by rw [ones, stageOnes_get]
  have draws : fire = fireDraw cfg p := by
    rw [fireDraw_eq]
    simp only [fire, record]
  have takes : taken = fireGranted cfg p := PerGroup.ext_get fun g => by
    rw [fireGranted_get, ← record]
    exact PerGroup.get_build ..
  have served : high = highServed cfg p := by rw [highServed, ← takes, ← draws]
  rw [served, draws]
  exact ⟨by rw [allocate_free free, Pass.of_groups, allServed],
    by rw [allocate_free free, Pass.of_fireShort]; exact decide_eq_true_iff⟩

theorem GroupRec.grantsAny_false_iff (r : GroupRec) : r.grantsAny = false ↔ ∀ c, c ∈ r.chosen → c.granted = 0 := by
  simp [GroupRec.grantsAny]

theorem rotate_duty (before now : PerGroup GroupRec) (p : Plant) (g : Group) :
    ((rotate before now p).gal.groups.get g).duty =
      if (before.get g).grantsAny && !(now.get g).grantsAny then
        (p.gal.groups.get g).duty.drop 1 ++ (p.gal.groups.get g).duty.take 1 else (p.gal.groups.get g).duty := by
  rw [rotate_group]

/-! ## The queue test that ends a pass (R140, R142) -/

@[simp] theorem FanRec.started_target (f : Fan) (r : FanRec) : (r.started cfg f).target = r.target := by
  unfold FanRec.started
  dsimp only
  split
  · rfl
  · split <;> rfl

/-- A queue test stages the head of the queue when it is FIRE or fits the budget. -/
theorem wanted_eq_none_iff {m : Plant} : m.wanted cfg = none ↔ ∀ e es, m.fsq.queue = e :: es →
    e.fire = false ∧ m.fsq.budget < drawn cfg m + reservation cfg m e.fan := by
  rcases queue : m.fsq.queue with _ | ⟨e, es⟩ <;> simp [Plant.wanted, queue]

theorem wants_head {m : Plant} (wants : m.wanted cfg ≠ none) : ∃ e es, m.fsq.queue = e :: es ∧
    (e.fire = true ∨ drawn cfg m + reservation cfg m e.fan ≤ m.fsq.budget) := by
  rw [Ne, wanted_eq_none_iff] at wants
  push Not at wants
  obtain ⟨e, es, queue, short⟩ := wants
  refine ⟨e, es, queue, ?_⟩
  rcases Bool.eq_false_or_eq_true e.fire with fire | normal
  · exact .inl fire
  · exact .inr (short normal)

/-- The queue and the fans that a pass leaves, by whether its queue test launches the head `e`. -/
theorem Plant.Passed.outcome {m : Plant} (passed : p.Passed cfg m) (h : p.Covered cfg) :
    let t := (Machine.queueTest cfg m).1
    t.fsq.budget = p.gal.budget ∧ (∀ f, (t.fan f).target = (p.afterPass cfg f).target) ∧
      (m.wanted cfg = none ∨ mayLaunch m = false →
        t.fsq.queue = m.fsq.queue ∧ t.fsq.spacing = p.fsq.spacing ∧ ∀ f, t.fan f = p.afterPass cfg f) ∧
      ∀ e es, m.fsq.queue = e :: es → mayLaunch m = true →
        e.fire = true ∨ drawn cfg m + reservation cfg m e.fan ≤ m.fsq.budget →
        t.fsq.queue = es ∧ t.fsq.spacing = some cfg.timers.spacing ∧
          t.fan e.fan = (p.afterPass cfg e.fan).started cfg e.fan ∧ ∀ f, f ≠ e.fan → t.fan f = p.afterPass cfg f := by
  have rests (r : m.wanted cfg = none ∨ mayLaunch m = false) :
      (Machine.queueTest cfg m).1.fsq.queue = m.fsq.queue ∧ (Machine.queueTest cfg m).1.fsq.spacing = p.fsq.spacing ∧
        ∀ f, (Machine.queueTest cfg m).1.fan f = p.afterPass cfg f := by
    rw [passed.queueTest_rests h r]
    exact ⟨rfl, passed.spacing, passed.fan⟩
  have launches (e : QueueEntry) (es : List QueueEntry) (queue : m.fsq.queue = e :: es) (may : mayLaunch m = true)
      (fits : e.fire = true ∨ drawn cfg m + reservation cfg m e.fan ≤ m.fsq.budget) :
      (Machine.queueTest cfg m).1.fsq.queue = es ∧ (Machine.queueTest cfg m).1.fsq.spacing = some cfg.timers.spacing ∧
        (Machine.queueTest cfg m).1.fan e.fan = (p.afterPass cfg e.fan).started cfg e.fan ∧
        ∀ f, f ≠ e.fan → (Machine.queueTest cfg m).1.fan f = p.afterPass cfg f := by
    rw [passed.queueTest_launches h queue may fits]
    refine ⟨rfl, rfl, ?_, fun f other => ?_⟩
    · rw [← passed.fan]
      exact (PerFan.get_set ..).trans (if_pos rfl)
    · rw [← passed.fan]
      exact (PerFan.get_set ..).trans (if_neg other)
  refine ⟨?_, fun f => ?_, rests, launches⟩
  · by_cases r : m.wanted cfg = none ∨ mayLaunch m = false
    · rw [passed.queueTest_rests h r]
      exact passed.budget
    · obtain ⟨wants, may⟩ := not_or.mp r
      obtain ⟨e, es, queue, fits⟩ := wants_head wants
      rw [passed.queueTest_launches h queue (Bool.eq_true_of_not_eq_false may) fits]
      exact passed.budget
  by_cases r : m.wanted cfg = none ∨ mayLaunch m = false
  · rw [(rests r).2.2]
  · obtain ⟨wants, may⟩ := not_or.mp r
    obtain ⟨e, es, queue, fits⟩ := wants_head wants
    obtain ⟨-, -, own, others⟩ := launches e es queue (Bool.eq_true_of_not_eq_false may) fits
    by_cases same : f = e.fan
    · rw [same, own, FanRec.started_target]
    · rw [others f same]

/-- A pass that finds no failure (R129, R136 to R147, R154). -/
theorem runPass_hands_on (cfg : Settings) (p : Plant) (ok : p.QueueOk) (hold : p.HoldOk)
    (sound : ∀ f, (p.fan f).driveFault = true →
      ((allocate cfg p).grants.get f).target = 0 ∨ ((allocate cfg p).grants.get f).fire = true) :
    let t := runPass cfg p
    let after := p.afterPass cfg
    let needed (f : Fan) : Nat := power (cfg.fans.rated.get f) (after f).target
    let drawn (fans : Fan → FanRec) : Nat := (Fan.all.map fun f => if (fans f).state.inService then
      power (cfg.fans.rated.get f) (max (fans f).output (fans f).target) else 0).sum
    t.fsq.budget = p.gal.budget ∧
      (t.fsq.staged = match t.fsq.queue with
        | [] => none
        | e :: _ => if e.fire = true ∨ drawn t.fan + needed e.fan ≤ p.gal.budget then
            some { fan := e.fan, reservation := needed e.fan } else none) ∧
      ∃ q : List QueueEntry, (q.map QueueEntry.fan).Nodup ∧
        (∀ f, f ∈ q.map QueueEntry.fan ↔ (after f).state = .queued) ∧
        (∀ e ∈ q, e.fire = (after e.fan).fire ∧
          ((∃ o ∈ p.fsq.queue, o.fan = e.fan ∧ o.arrival = e.arrival) ∨
            (p.fan e.fan).state ≠ .queued ∧ p.fsq.nextArrival ≤ e.arrival)) ∧
        q.Pairwise QueueEntry.Before ∧
        (∀ a ∈ q, ∀ b ∈ q, p.fsq.nextArrival ≤ a.arrival → p.fsq.nextArrival ≤ b.arrival →
          a.fan.number < b.fan.number → a.arrival < b.arrival) ∧
        (p.fsq.spacing ≠ none ∨ (∃ f, (after f).state = .starting) ∨
          (∀ e es, q = e :: es → e.fire = false ∧ p.gal.budget < drawn after + needed e.fan) →
          t.fsq.queue = q ∧ t.fsq.spacing = p.fsq.spacing ∧ ∀ f, t.fan f = after f) ∧
        ∀ e es, q = e :: es → p.fsq.spacing = none → (∀ f, (after f).state ≠ .starting) →
          (e.fire = true ∨ drawn after + needed e.fan ≤ p.gal.budget) →
          t.fsq.queue = es ∧ t.fsq.spacing = some cfg.timers.spacing ∧ t.fan e.fan = (after e.fan).started cfg e.fan ∧
            ∀ f, f ≠ e.fan → t.fan f = after f := by
  intro t after needed drawn
  have covered := Plant.Covered.of_holdOk ok hold sound
  obtain ⟨m, passed, (fsq : t.fsq = _), -⟩ := runPass_passed covered
  clear_value t
  have staged := (passed.queueTest covered).2
  obtain ⟨budget, target, rests, launches⟩ := passed.outcome covered
  generalize queueTest cfg m = u at *
  have view (f : Fan) : t.fan f = u.1.fan f := by rw [Plant.fan, fsq]; rfl
  have fans : m.fan = after := funext passed.fan
  have draws : Machine.drawn cfg m = drawn after := by rw [Machine.drawn, fans]
  have needs (f : Fan) : reservation cfg m f = needed f := by rw [reservation, fans]
  have keep : t.fan = u.1.fan := funext view
  rw [← fsq, ← keep] at rests launches
  refine ⟨by rw [fsq, budget], ?_, m.fsq.queue, passed.ok.2.1, fun f => ?_, ?_, ?_, passed.order, ?_, ?_⟩
  · rw [fsq, staged, Plant.wanted]
    rcases queue : u.1.fsq.queue with _ | ⟨e, es⟩
    · rfl
    · have drew : Machine.drawn cfg u.1 = drawn t.fan := by
        rw [Machine.drawn, show t.fan = u.1.fan from funext view]
      have need : reservation cfg u.1 e.fan = needed e.fan := by
        rw [reservation, target]
      simp only [drew, need, budget]
  · rw [← fans]
    exact ⟨fun mem => by obtain ⟨e, queued, rfl⟩ := List.mem_map.mp mem; exact (passed.ok.1 e queued).1,
      fun queued => passed.ok.2.2.2.1 f queued⟩
  · intro e mem
    obtain ⟨fire, came⟩ := passed.joined e mem
    exact ⟨fire.trans (congrArg FanRec.fire (passed.fan e.fan)), came⟩
  · exact passed.ok.2.2.2.2.1.imp QueueEntry.before_of_ahead
  · intro why
    refine rests ?_
    rcases why with busy | ⟨f, starting⟩ | short
    · exact .inr (Bool.eq_false_iff.mpr fun may => busy (passed.spacing.symm.trans (mayLaunch_iff.mp may).1))
    · exact .inr (Bool.eq_false_iff.mpr fun may =>
        (mayLaunch_iff.mp may).2 f ((congrArg FanRec.state (passed.fan f)).trans starting))
    · refine .inl (wanted_eq_none_iff.mpr fun e es queue => ?_)
      rw [draws, needs, passed.budget]
      exact short e es queue
  · intro e es queue spacing idle fit
    refine launches e es queue (mayLaunch_iff.mpr ⟨passed.spacing.trans spacing, fun f => ?_⟩) ?_
    · rw [passed.fan]
      exact idle f
    · rw [draws, needs, passed.budget]
      exact fit

/-! ## The records of stage 1, as the spec words them -/

theorem allocate_stageOne (cfg : Settings) (p : Plant) (g : Group) :
    let x := (allocate cfg p).groups.get g
    let result (z : Zone) : ZoneResult := (p.zones.get z).result
    let fireClass (z : Zone) : Prop :=
      ((result z).level = some 6 ∨ (result z).level = some 7) ∧ (result z).kind = some .exhaust
    (∀ z, z ∈ x.counted ↔ cfg.zones.group.get z = g ∧
      (fireClass z ∧ (p.dampers.get z).commandOpen = true ∨ ¬fireClass z ∧ (p.dampers.get z).state = .opened)) ∧
    (∀ z, z ∈ x.counted → (result z).demand ≤ x.demand) ∧
    (x.demand = 0 ∨ ∃ z, z ∈ x.counted ∧ (result z).demand = x.demand) ∧
    (x.cls = .fire ↔ ∃ z, z ∈ x.counted ∧ fireClass z) ∧
    (x.cls = .high ↔ (∀ z, z ∈ x.counted → ¬fireClass z ∧ (result z).level.getD 0 ≤ 4) ∧
      ∃ z, z ∈ x.counted ∧ (result z).level = some 4) := by
  intro x result fireClass
  obtain ⟨counted, demand, cls, -⟩ := allocate_record cfg p g
  change x.counted = _ at counted
  change x.demand = _ at demand
  change x.cls = _ at cls
  have fire (z : Zone) : (result z).fireClass = true ↔ fireClass z := ZoneResult.fireClass_iff _
  have class_ : (stageOne cfg p g).cls = classOf ((stageOne cfg p g).counted.map result) := rfl
  have most := stageOne_demand cfg p g
  rw [counted, demand, cls]
  refine ⟨fun z => ?_, fun z mem => ?_, ?_, ?_, ?_⟩
  · rw [stageOne_counted, fire]
  · exact most ▸ le_largest (List.mem_map.mpr ⟨z, mem, rfl⟩)
  · rcases largest_map_eq (fun z => (result z).demand) (stageOne cfg p g).counted with zero | ⟨z, mem, reached⟩
    · exact .inl (most.trans zero)
    · exact .inr ⟨z, mem, reached.trans most.symm⟩
  · rw [class_, classOf_fire]
    simp only [List.mem_map, exists_exists_and_eq_and, fire]
  · rw [class_, classOf_high, List.forall_mem_map]
    simp only [List.mem_map, exists_exists_and_eq_and, fire]

theorem allocate_wish (cfg : Settings) (p : Plant) (g : Group) :
    let x := (allocate cfg p).groups.get g
    let free := (p.gal.groups.get g).duty.filter fun f =>
      decide ((p.fan f).state ≠ .tripped ∧ (p.fan f).state ≠ .locked)
    x.installed = (Fan.all.filter fun f => cfg.fans.group.get f == some g).length ∧ x.available = free.length ∧
    (x.demand = 0 → x.count = 0 ∧ x.speed = 0) ∧
    (0 < x.demand → x.installed = 0 → x.count = 0 ∧ x.speed = 0) ∧
    (0 < x.demand → 0 < x.installed → ∀ k, x.demand * x.installed ≤ 100 * k →
      100 * k < x.demand * x.installed + 100 →
      (x.available < k → x.count = x.available ∧ x.speed = 100) ∧
      (k ≤ x.available → x.count = k ∧ ∀ v, x.demand * x.installed ≤ v * k → v * k < x.demand * x.installed + k →
        x.speed = max (cfg.fans.vMin.get g) v)) ∧
    x.chosen.map Chosen.fan = free.take x.count ∧ (x.unserved = true ↔ 0 < x.demand ∧ free = []) ∧
    x.duty = (p.gal.groups.get g).duty := by
  intro x free
  obtain ⟨-, demand, -, installed, available, count, speed, unserved, duty⟩ := allocate_record cfg p g
  have fans := allocate_fans cfg p g
  change x.demand = _ at demand
  change x.installed = _ at installed
  change x.available = _ at available
  change x.count = _ at count
  change x.speed = _ at speed
  change x.unserved = _ at unserved
  change x.duty = _ at duty
  change x.chosen.map _ = _ at fans
  rw [← count, Plant.availableFans_eq] at fans
  have reach : (stageOne cfg p g).available = free.length := congrArg List.length (p.availableFans_eq g)
  have wish : (x.count, x.speed) = wishOf x.demand x.installed x.available (cfg.fans.vMin.get g) := by
    rw [count, speed, demand, installed, available]
    rfl
  have mark : x.unserved = (decide (0 < x.demand) && free.isEmpty) := by
    rw [unserved, demand, show free = p.availableFans g from (p.availableFans_eq g).symm]
    rfl
  have split {a b : Nat} (h : wishOf x.demand x.installed x.available (cfg.fans.vMin.get g) = (a, b)) :
      x.count = a ∧ x.speed = b := Prod.mk.inj (wish.trans h)
  refine ⟨installed.trans rfl, available.trans reach, fun zero => split (wishOf_none (.inl zero)),
    fun _ zero => split (wishOf_none (.inr zero)), fun demanded stands k low high => ?_, fans, ?_, duty.trans rfl⟩
  · have wished := wishOf_some (a := x.available) (v := cfg.fans.vMin.get g) demanded stands low high
    refine ⟨fun few => split (wished.trans (if_pos few)), fun enough => ?_⟩
    obtain ⟨counts, speeds⟩ := split (wished.trans (if_neg enough.not_gt))
    refine ⟨counts, fun v least most => ?_⟩
    rw [speeds, ceilDiv_unique (Nat.mul_comm v k ▸ least) (Nat.mul_comm v k ▸ most)]
  · simp [mark]

/-- Settles O20: each part by the lemma about its function; the pass by what its grants, outputs and queue test do. -/
theorem fireClassIsGrantedInFull : Obligations.FireClassIsGrantedInFull := by
  refine ⟨fun cfg p => ⟨fun free g c fire mem => ?_, fun held f => allocate_hold held f⟩, fun cfg p g => ?_,
    fun cfg p free => allocate_classes cfg p free, fun cfg f p g => sendToBack_duty cfg f p g, fun before now p g => ?_,
    fun cfg g duty => rebuildDuty_eq cfg g duty, fun cfg p f duty => ⟨fun g c mem own free => ?_, fun none => ?_⟩,
    fun cfg p ok hold => ?_⟩
  · have own : (stageOne cfg p g).cls = .fire := (allocate_record cfg p g).2.2.1.symm.trans fire
    have granted := allocate_fire free own
    rw [GroupRec.grant_all] at granted
    rw [granted] at mem ⊢
    obtain ⟨d, -, rfl⟩ := List.mem_map.mp mem
    rfl
  · obtain ⟨counted, atMost, reached, fire, high⟩ := allocate_stageOne cfg p g
    exact ⟨counted, atMost, reached, fire, high, allocate_wish cfg p g⟩
  · dsimp only
    rw [rotate_duty, ← GroupRec.grantsAny_false_iff, ← GroupRec.grantsAny_false_iff]
    cases (before.get g).grantsAny <;> cases (now.get g).grantsAny <;> simp
  · subst own
    have chosen := allocate_chosen duty
    rw [allocate_grants free, grantOf_chosen mem (chosen g).1 fun h other y memH same => ?_, Bool.decide_and]
    · simp only [Bool.beq_eq_decide_eq]
    · have mine := (chosen g).2 c mem
      rw [← same, (chosen h).2 y memH] at mine
      exact other (Option.some.inj mine)
  · rcases Bool.eq_false_or_eq_true p.supplyHold with held | free
    · exact allocate_hold held f
    · rw [allocate_grants free, grantOf_unchosen none]
  · intro x sound t moved after needed drawn started granting
    have same : p.afterPass cfg = after := funext fun f => Plant.afterPass_eq cfg p f
    have covered := Plant.Covered.of_holdOk ok hold sound
    obtain ⟨m, -, -, grants, short, groups⟩ := runPass_passed covered
    have hands := runPass_hands_on cfg p ok hold sound
    have ran : runPass cfg p = t := rfl
    have allocated : allocate cfg p = x := rfl
    rw [same, ran] at hands
    rw [ran] at grants short groups
    obtain ⟨budget, staged, queue⟩ := hands
    have side : p.SameFireSide t := (runPass_chain cfg p).same
    rw [allocated] at grants short groups
    clear_value t
    refine ⟨side, grants, short, budget, fun g => ?_, staged, ?_⟩
    · exact groups g
    · exact queue

end

end Sys2Proof.Machine

/-! The budget in class order: what a class is granted of a remainder, and what all classes draw together. -/

namespace Sys2Proof.Machine

/-! ## Which group loses a fan next (R128) -/

/-- The choice among the groups `done`: none while none has a fan, else one with the most fans, of equals the highest
number. -/
def ShedChoice (kept : PerGroup Nat) (done : List Group) : Option Group → Prop
  | none => ∀ g ∈ done, kept.get g = 0
  | some b => b ∈ done ∧ 0 < kept.get b ∧
    ∀ h ∈ done, kept.get h ≤ kept.get b ∧ (kept.get h = kept.get b → h.number ≤ b.number)

/-- The choice when one more group comes into it. -/
def shedStep (kept : PerGroup Nat) (best : Option Group) (g : Group) : Option Group :=
  if kept.get g = 0 then best
  else
    match best with
    | none => some g
    | some b => if kept.get b ≤ kept.get g then some g else some b

theorem shedFrom_eq (kept : PerGroup Nat) : shedFrom kept = Group.all.foldl (shedStep kept) none := rfl

theorem ShedChoice.step {kept : PerGroup Nat} {done : List Group} {best : Option Group} (h : ShedChoice kept done best)
    {g : Group} (last : ∀ d ∈ done, d.number < g.number) : ShedChoice kept (done ++ [g]) (shedStep kept best g) := by
  unfold shedStep
  have own : ∀ d, d ∈ done ++ [g] ↔ d ∈ done ∨ d = g := by simp
  by_cases empty : kept.get g = 0
  · rw [if_pos empty]
    cases best with
    | none => exact fun d mem => ((own d).mp mem).elim (h d) fun same => same ▸ empty
    | some b =>
      obtain ⟨within, pos, most⟩ := h
      refine ⟨(own b).mpr (.inl within), pos, fun d mem => ((own d).mp mem).elim (most d) ?_⟩
      rintro rfl
      exact ⟨by omega, fun same => absurd (empty.symm.trans same) pos.ne⟩
  · rw [if_neg empty]
    have only : ∀ b, b = g → 0 < kept.get b := fun b same => by subst same; omega
    cases best with
    | none =>
      refine ⟨(own g).mpr (.inr rfl), only g rfl, fun d mem => ((own d).mp mem).elim (fun old => ?_) ?_⟩
      · exact ⟨by rw [h d old]; omega, fun _ => (last d old).le⟩
      · rintro rfl
        exact ⟨le_rfl, fun _ => le_rfl⟩
    | some b =>
      obtain ⟨within, pos, most⟩ := h
      dsimp only
      split
      · rename_i more
        refine ⟨(own g).mpr (.inr rfl), only g rfl, fun d mem => ((own d).mp mem).elim (fun old => ?_) ?_⟩
        · exact ⟨(most d old).1.trans more, fun _ => (last d old).le⟩
        · rintro rfl
          exact ⟨le_rfl, fun _ => le_rfl⟩
      · rename_i fewer
        refine ⟨(own b).mpr (.inl within), pos, fun d mem => ((own d).mp mem).elim (most d) ?_⟩
        rintro rfl
        exact ⟨by omega, fun same => by omega⟩

theorem Group.all_ascending : Group.all.Pairwise fun a b => a.number < b.number := by decide

theorem shedFrom_choice (kept : PerGroup Nat) : ShedChoice kept Group.all (shedFrom kept) := by
  suffices general : ∀ (l done : List Group) (best : Option Group), ShedChoice kept done best →
      (done ++ l).Pairwise (fun a b => a.number < b.number) → ShedChoice kept (done ++ l) (l.foldl (shedStep kept) best) from
    general Group.all [] none (fun g mem => nomatch mem) Group.all_ascending
  intro l
  induction l with
  | nil => intro done best h _; rwa [List.append_nil]
  | cons g gs ih =>
    intro done best h ascending
    rw [List.foldl_cons, List.append_cons]
    have last : ∀ d ∈ done, d.number < g.number := fun d mem =>
      (List.pairwise_append.mp ascending).2.2 d mem g List.mem_cons_self
    exact ih _ _ (h.step last) (by rwa [← List.append_cons])

theorem shedFrom_none {kept : PerGroup Nat} (h : shedFrom kept = none) (g : Group) : kept.get g = 0 := by
  have choice := shedFrom_choice kept
  rw [h] at choice
  exact choice g (Group.mem_all g)

theorem shedFrom_some {kept : PerGroup Nat} {g : Group} (h : shedFrom kept = some g) : 0 < kept.get g ∧
    ∀ h, kept.get h ≤ kept.get g ∧ (kept.get h = kept.get g → h.number ≤ g.number) := by
  have choice := shedFrom_choice kept
  rw [h] at choice
  exact ⟨choice.2.1, fun h => choice.2.2 h (Group.mem_all h)⟩

/-! ## Shedding (R128) -/

/-- One fan is shed. -/
def removeOne (kept : PerGroup Nat) : PerGroup Nat :=
  match shedFrom kept with
  | some g => kept.set g (kept.get g - 1)
  | none => kept

theorem sum_set_pred {kept : PerGroup Nat} {g : Group} (pos : 0 < kept.get g) {l : List Group} (nodup : l.Nodup)
    (mem : g ∈ l) : (l.map (kept.set g (kept.get g - 1)).get).sum + 1 = (l.map kept.get).sum := by
  obtain ⟨a, b, rfl⟩ := List.append_of_mem mem
  rw [List.nodup_middle, List.nodup_cons, List.mem_append, not_or] at nodup
  have apart (c : List Group) (other : g ∉ c) : c.map (kept.set g (kept.get g - 1)).get = c.map kept.get :=
    List.map_congr_left fun h within => by
      rw [PerGroup.get_set, if_neg (by rintro rfl; exact other within)]
  simp only [List.map_append, List.map_cons, List.sum_append, List.sum_cons, apart a nodup.1.1, apart b nodup.1.2,
    PerGroup.get_set, if_true]
  omega

theorem repeat_succ_inner {α : Type} (f : α → α) (n : Nat) (a : α) : Nat.repeat f (n + 1) a = Nat.repeat f n (f a) := by
  induction n with
  | zero => rfl
  | succ n ih => exact congrArg f ih

/-- Fans are shed one at a time until the sum fits or none is left. -/
theorem shed_eq_repeat (sum : PerGroup Nat → Nat) (limit fuel : Nat) (kept : PerGroup Nat)
    (enough : (Group.all.map kept.get).sum ≤ fuel) : ∃ n, shed sum limit fuel kept = Nat.repeat removeOne n kept ∧
      (∀ m, m < n → limit < sum (Nat.repeat removeOne m kept)) ∧
      (sum (shed sum limit fuel kept) ≤ limit ∨ ∀ g, (shed sum limit fuel kept).get g = 0) := by
  induction fuel generalizing kept with
  | zero =>
    refine ⟨0, rfl, fun m less => absurd less (Nat.not_lt_zero m), .inr fun g => ?_⟩
    exact List.sum_eq_zero_iff.mp (Nat.le_zero.mp enough) _ (List.mem_map.mpr ⟨g, Group.mem_all g, rfl⟩)
  | succ fuel ih =>
    rw [shed]
    by_cases fits : sum kept ≤ limit
    · rw [if_pos fits]
      exact ⟨0, rfl, fun m less => absurd less (Nat.not_lt_zero m), .inl fits⟩
    · rw [if_neg fits]
      rcases from_ : shedFrom kept with _ | g
      · exact ⟨0, rfl, fun m less => absurd less (Nat.not_lt_zero m), .inr (shedFrom_none from_)⟩
      · have removed : removeOne kept = kept.set g (kept.get g - 1) := by rw [removeOne, from_]
        have fewer := sum_set_pred (shedFrom_some from_).1 Group.all_nodup (Group.mem_all g)
        obtain ⟨n, made, exceeds, done⟩ := ih (kept.set g (kept.get g - 1)) (by omega)
        rw [← removed] at made exceeds done
        dsimp only
        rw [← removed]
        refine ⟨n + 1, ?_, fun m less => ?_, done⟩
        · rw [repeat_succ_inner]
          exact made
        · cases m with
          | zero => exact Nat.lt_of_not_le fits
          | succ m =>
            rw [repeat_succ_inner]
            exact exceeds m (Nat.lt_of_succ_lt_succ less)

/-! ## The largest cap that fits (R127) -/

theorem searchCap_some {fits : Nat → Bool} {n c : Nat} (h : searchCap fits n = some c) :
    20 ≤ c ∧ c ≤ 20 + n ∧ fits c = true ∧ ∀ d, c < d → d ≤ 20 + n → fits d = false := by
  induction n with
  | zero =>
    rw [searchCap] at h
    split at h
    · rename_i fit
      obtain rfl := Option.some.inj h
      exact ⟨le_rfl, le_rfl, fit, fun d above within => absurd within above.not_ge⟩
    · cases h
  | succ n ih =>
    rw [searchCap] at h
    split at h
    · rename_i fit
      obtain rfl := Option.some.inj h
      exact ⟨Nat.le_add_right 20 _, le_rfl, fit, fun d above within => absurd within above.not_ge⟩
    · rename_i short
      obtain ⟨low, high, fit, larger⟩ := ih h
      refine ⟨low, by omega, fit, fun d above within => ?_⟩
      rcases Nat.lt_or_ge (20 + n) d with last | below
      · have same : d = Config.lowestCap + (n + 1) := le_antisymm within last
        rw [same]
        exact Bool.eq_false_iff.mpr short
      · exact larger d above below

theorem searchCap_none {fits : Nat → Bool} {n : Nat} (h : searchCap fits n = none) :
    ∀ c, 20 ≤ c → c ≤ 20 + n → fits c = false := by
  induction n with
  | zero =>
    rw [searchCap] at h
    intro c low high
    obtain rfl : c = Config.lowestCap := le_antisymm high low
    by_contra fit
    rw [if_pos (Bool.eq_true_of_not_eq_false fit)] at h
    cases h
  | succ n ih =>
    rw [searchCap] at h
    split at h
    · cases h
    · rename_i short
      intro c low high
      rcases Nat.lt_or_ge (20 + n) c with last | below
      · have same : c = Config.lowestCap + (n + 1) := le_antisymm high last
        rw [same]
        exact Bool.eq_false_iff.mpr short
      · exact ih h c low below

end Sys2Proof.Machine

/-! The grants fit the budget. -/

namespace Sys2Proof.Machine

section
variable {cfg : Settings} {cls : GroupClass} {rs : PerGroup GroupRec} {R : Nat} {p : Plant}

/-! ## The three ways to serve a class (R126 to R128) -/

theorem serveClass_whole (fits : sumAt cfg cls rs (fun g => (rs.get g).chosen.length) (fun g => (rs.get g).speed) ≤ R) :
    serveClass cfg cls rs R = (mapClass rs cls fun _ r => r.grant r.chosen.length r.speed .none,
      R - sumAt cfg cls rs (fun g => (rs.get g).chosen.length) fun g => (rs.get g).speed) := by
  rw [← classPower_eq] at fits ⊢
  unfold serveClass
  exact if_pos fits

/-- The cap that a class gets. -/
def capOf (cfg : Settings) (cls : GroupClass) (rs : PerGroup GroupRec) (R : Nat) : Option Nat :=
  searchCap (fun c => decide (classPower cfg rs cls (cappedSpeed cfg rs c) ≤ R)) 80

theorem capOf_some {c : Nat} (h : capOf cfg cls rs R = some c) : 20 ≤ c ∧ c ≤ 100 ∧
    sumAt cfg cls rs (fun g => (rs.get g).chosen.length) (cappedSpeed cfg rs c) ≤ R ∧
    ∀ d, c < d → d ≤ 100 → R < sumAt cfg cls rs (fun g => (rs.get g).chosen.length) (cappedSpeed cfg rs d) := by
  obtain ⟨low, high, fit, larger⟩ := searchCap_some h
  refine ⟨low, high, ?_, fun d above within => ?_⟩
  · rw [← classPower_eq]
    exact of_decide_eq_true fit
  · rw [← classPower_eq]
    exact Nat.lt_of_not_le (of_decide_eq_false (larger d above within))

theorem capOf_none (h : capOf cfg cls rs R = none) : ∀ c, 20 ≤ c → c ≤ 100 →
    R < sumAt cfg cls rs (fun g => (rs.get g).chosen.length) (cappedSpeed cfg rs c) := fun c low high => by
  rw [← classPower_eq]
  exact Nat.lt_of_not_le (of_decide_eq_false (searchCap_none h c low high))

theorem serveClass_capped {c : Nat}
    (short : R < sumAt cfg cls rs (fun g => (rs.get g).chosen.length) fun g => (rs.get g).speed)
    (found : capOf cfg cls rs R = some c) : serveClass cfg cls rs R =
      (mapClass rs cls fun g r => r.grant r.chosen.length (cappedSpeed cfg rs c g)
          (if r.chosen ≠ [] ∧ cappedSpeed cfg rs c g < r.speed then .capped else .none),
        R - sumAt cfg cls rs (fun g => (rs.get g).chosen.length) (cappedSpeed cfg rs c)) := by
  rw [← classPower_eq] at short
  rw [capOf] at found
  rw [← classPower_eq]
  unfold serveClass
  dsimp only
  rw [if_neg short.not_ge, found]

/-- Every chosen fan of the class. -/
def wholeClass (cls : GroupClass) (rs : PerGroup GroupRec) : PerGroup Nat :=
  .build fun g => if (rs.get g).cls = cls then (rs.get g).chosen.length else 0

/-- The power of a class whose groups run some of their fans at V_min. -/
def leastPower (cfg : Settings) (cls : GroupClass) (rs : PerGroup GroupRec) (kept : PerGroup Nat) : Nat :=
  sumAt cfg cls rs kept.get cfg.fans.vMin.get

/-- The fans that shedding leaves a class. -/
def keptOf (cfg : Settings) (cls : GroupClass) (rs : PerGroup GroupRec) (R : Nat) : PerGroup Nat :=
  shed (leastPower cfg cls rs) R (Group.all.map (wholeClass cls rs).get).sum (wholeClass cls rs)

theorem serveClass_shed
    (short : R < sumAt cfg cls rs (fun g => (rs.get g).chosen.length) fun g => (rs.get g).speed)
    (none : capOf cfg cls rs R = none) : serveClass cfg cls rs R =
      (mapClass rs cls fun g r => r.grant ((keptOf cfg cls rs R).get g) (cfg.fans.vMin.get g)
          (if (keptOf cfg cls rs R).get g < r.chosen.length then .shed
          else if r.chosen ≠ [] ∧ cfg.fans.vMin.get g < r.speed then .capped else .none),
        R - leastPower cfg cls rs (keptOf cfg cls rs R)) := by
  have least : (fun kept : PerGroup Nat => total ((ofClass rs cls).map fun g =>
      groupPower cfg (rs.get g) (kept.get g) (cfg.fans.vMin.get g))) = leastPower cfg cls rs := funext fun kept => by
    rw [total_ofClass, leastPower, sumAt]
    simp only [groupPower_eq_sum]
  rw [← classPower_eq] at short
  rw [capOf] at none
  unfold serveClass
  dsimp only
  rw [if_neg short.not_ge, none]
  dsimp only
  rw [total_eq_sum, ← wholeClass, least, ← keptOf, ← least]

/-- Shedding ends below the remainder or with no fan left, which draws nothing. -/
theorem keptOf_fits (cfg : Settings) (cls : GroupClass) (rs : PerGroup GroupRec) (R : Nat) :
    leastPower cfg cls rs (keptOf cfg cls rs R) ≤ R := by
  obtain ⟨-, -, -, fits | none⟩ := shed_eq_repeat (leastPower cfg cls rs) R _ (wholeClass cls rs) le_rfl
  · exact fits
  · refine (le_of_eq ?_).trans (Nat.zero_le R)
    rw [leastPower, sumAt]
    refine List.sum_eq_zero_iff.mpr fun n mem => ?_
    obtain ⟨g, -, rfl⟩ := List.mem_map.mp mem
    rw [show (keptOf cfg cls rs R).get g = 0 from none g]
    split <;> rfl

/-! ## What a class draws -/

/-- The power of a group's chosen fans at what they are granted. -/
def GroupRec.draw (cfg : Settings) (r : GroupRec) : Nat :=
  (r.chosen.map fun c => power (cfg.fans.rated.get c.fan) c.granted).sum

/-- What the groups of a class draw together. -/
def classDraw (cfg : Settings) (cls : GroupClass) (rs : PerGroup GroupRec) : Nat :=
  (Group.all.map fun g => if (rs.get g).cls = cls then (rs.get g).draw cfg else 0).sum

theorem GroupRec.grant_draw (r : GroupRec) (kept v : Nat) (c : Curtailment) : (r.grant kept v c).draw cfg =
    ((r.chosen.take kept).map fun c => power (cfg.fans.rated.get c.fan) v).sum := by
  have dropped : (((r.chosen.drop kept).map (Chosen.granting 0)).map fun c =>
      power (cfg.fans.rated.get c.fan) c.granted).sum = 0 := by
    refine List.sum_eq_zero_iff.mpr fun n mem => ?_
    rw [List.map_map] at mem
    obtain ⟨c, -, rfl⟩ := List.mem_map.mp mem
    exact power_zero _
  rw [GroupRec.draw, GroupRec.grant_eq]
  dsimp only
  rw [List.map_append, List.sum_append, dropped, List.map_map]
  rfl

theorem mapClass_draw (k v : Group → GroupRec → Nat) (c : Group → GroupRec → Curtailment) :
    classDraw cfg cls (mapClass rs cls fun g r => r.grant (k g r) (v g r) (c g r)) =
      sumAt cfg cls rs (fun g => k g (rs.get g)) fun g => v g (rs.get g) := by
  rw [classDraw, sumAt]
  refine congrArg List.sum (List.map_congr_left fun g _ => ?_)
  rw [mapClass_get]
  by_cases mine : (rs.get g).cls = cls
  · rw [if_pos mine, if_pos mine, ← GroupRec.grant_draw _ _ _ (c g (rs.get g))]
    exact if_pos mine
  · rw [if_neg mine, if_neg mine, if_neg mine]

/-- A class draws, whole, capped or shed, what its remainder loses. -/
theorem serveClass_draw (cfg : Settings) (cls : GroupClass) (rs : PerGroup GroupRec) (R : Nat) :
    classDraw cfg cls (serveClass cfg cls rs R).1 + (serveClass cfg cls rs R).2 = R := by
  rcases Nat.lt_or_ge R (sumAt cfg cls rs (fun g => (rs.get g).chosen.length) fun g => (rs.get g).speed) with short | fits
  · rcases found : capOf cfg cls rs R with _ | c
    · rw [serveClass_shed short found]
      dsimp only
      rw [mapClass_draw]
      exact Nat.add_sub_cancel' (keptOf_fits cfg cls rs R)
    · rw [serveClass_capped short found]
      dsimp only
      rw [mapClass_draw]
      exact Nat.add_sub_cancel' (capOf_some found).2.2.1
  · rw [serveClass_whole fits]
    dsimp only
    rw [mapClass_draw]
    exact Nat.add_sub_cancel' fits

theorem serveClass_cls (g : Group) : ((serveClass cfg cls rs R).1.get g).cls = (rs.get g).cls := by
  obtain ⟨kept, v, c, made⟩ := serveClass_get cfg cls rs R g
  rw [made]
  split <;> rfl

theorem serveClass_draw_other {other : GroupClass} (apart : other ≠ cls) :
    classDraw cfg other (serveClass cfg cls rs R).1 = classDraw cfg other rs := by
  rw [classDraw, classDraw]
  refine congrArg List.sum (List.map_congr_left fun g _ => ?_)
  rw [serveClass_cls]
  by_cases mine : (rs.get g).cls = other
  · rw [if_pos mine, if_pos mine, serveClass_other (mine.trans_ne apart)]
  · rw [if_neg mine, if_neg mine]

/-- Each group draws with its class. -/
theorem draw_by_class (cfg : Settings) (rs : PerGroup GroupRec) : (Group.all.map fun g => (rs.get g).draw cfg).sum =
    classDraw cfg .fire rs + classDraw cfg .high rs + classDraw cfg .normal rs := by
  rw [classDraw, classDraw, classDraw, ← List.sum_map_add, ← List.sum_map_add]
  refine congrArg List.sum (List.map_congr_left fun g _ => ?_)
  cases (rs.get g).cls <;> simp

/-- Unless the fire class alone exceeds it, the fans granted speeds draw at most the budget (R125 to R129). -/
theorem allocate_fits (cfg : Settings) (p : Plant) (free : p.supplyHold = false)
    (fits : (allocate cfg p).fireShort = false) :
    (Group.all.map fun g => ((allocate cfg p).groups.get g).draw cfg).sum ≤ p.gal.budget := by
  rw [allocate_free free, Pass.of_fireShort, decide_eq_false_iff_not, Nat.not_lt] at fits
  have fire : classDraw cfg .fire (allServed cfg p).1 = fireDraw cfg p := by
    rw [allServed, serveClass_draw_other (by decide), highServed, serveClass_draw_other (by decide), fireGranted,
      mapClass_draw, fireDraw, classPower_eq]
  have high : classDraw cfg .high (allServed cfg p).1 + (highServed cfg p).2 = p.gal.budget - fireDraw cfg p := by
    rw [allServed, serveClass_draw_other (by decide)]
    exact serveClass_draw ..
  have normal : classDraw cfg .normal (allServed cfg p).1 + (allServed cfg p).2 = (highServed cfg p).2 :=
    serveClass_draw ..
  rw [draw_by_class, allocate_free free, Pass.of_groups, fire]
  omega

/-! ## BUDGET-SHORT (R130) -/

theorem allocate_short (free : p.supplyHold = false) : (allocate cfg p).short = true ↔
    (allocate cfg p).fireShort = true ∨ ∃ g, ((allocate cfg p).groups.get g).curtailment ≠ .none := by
  rw [allocate_free free, Pass.of]
  simp

/-- What the first pass of a run of passes records stands at its end. -/
theorem runPass_records (cfg : Settings) (p : Plant) : (recordPass (allocate cfg p) p).SameFireSide (runPass cfg p) := by
  unfold runPass passes
  dsimp only
  have first := ((fsqPass_chain cfg (allocate cfg p).grants (recordPass (allocate cfg p) p)).trans
    (refreshStatus_chain cfg _)).trans (rotate_chain cfg p.gal.groups (allocate cfg p).groups _)
  have later := foldl_chain (fun q f => (sendToBack_chain cfg f q).trans (passes_chain cfg 12 _))
    (fsqPass cfg (allocate cfg p).grants (recordPass (allocate cfg p) p)).2
  exact FanChain.same (first.trans (later _))

theorem runPass_budgetShort (short : (allocate cfg p).short = true) : (runPass cfg p).events.budgetShort = true := by
  refine (runPass_records cfg p).events .budgetShort ?_
  rw [recordPass, Plant.raiseIf, if_pos short]
  rfl

end

/-- Settles O19: a class draws what its remainder loses, whichever way it is served. -/
theorem grantsFitTheBudget : Obligations.GrantsFitTheBudget := by
  refine ⟨fun cfg p free fits => allocate_fits cfg p free fits, fun cfg cls rs R => ?_,
    fun kept => ⟨shedFrom_none, fun g => shedFrom_some⟩, fun cfg p => ?_⟩
  · intro sumAt every wish least capped granted t
    refine ⟨fun g other => serveClass_other other, fun fits => ?_, fun short => ⟨fun c low high fit larger => ?_, fun none => ?_⟩⟩
    · rw [show t = _ from serveClass_whole fits]
      exact ⟨rfl, fun g mine => (mapClass_get ..).trans (if_pos mine)⟩
    · have found : capOf cfg cls rs R = some c := by
        rcases found : capOf cfg cls rs R with _ | d
        · exact absurd fit (capOf_none found c low high).not_ge
        · obtain ⟨-, high', fit', larger'⟩ := capOf_some found
          rcases Nat.lt_trichotomy c d with less | same | more
          · exact absurd fit' (larger d less high').not_ge
          · rw [same]
          · exact absurd fit (larger' c more high).not_ge
      rw [show t = _ from serveClass_capped short found]
      refine ⟨rfl, fun g mine => (mapClass_get ..).trans ((if_pos mine).trans ?_)⟩
      simp only [← List.length_pos_iff]
      rfl
    · have found : capOf cfg cls rs R = .none := by
        rcases found : capOf cfg cls rs R with _ | d
        · rfl
        · obtain ⟨low, high, fit, -⟩ := capOf_some found
          exact absurd fit (none d low high).not_ge
      obtain ⟨n, made, exceeds, done⟩ :=
        shed_eq_repeat (leastPower cfg cls rs) R _ (wholeClass cls rs) le_rfl
      rw [← keptOf] at made done
      refine ⟨n, ?_⟩
      intro remove start kept
      have kept_ : keptOf cfg cls rs R = kept := made
      rw [kept_] at done
      rw [show t = _ from serveClass_shed short found, kept_]
      refine ⟨exceeds, done, rfl, fun g mine => (mapClass_get ..).trans ((if_pos mine).trans ?_)⟩
      simp only [← List.length_pos_iff]
      rfl
  · intro x
    exact ⟨fun held => by rw [show x = allocate cfg p from rfl, allocate_held held], fun free => allocate_short free,
      fun short => runPass_budgetShort short⟩

end Sys2Proof.Machine

/-! The records that the part is read by, byte by byte. -/

namespace Sys2Proof.Machine

/-! ## Fields -/

theorem word2_eq (n : Nat) : word2 n = [byte (n / 256), byte (n % 256)] := by
  have low : byte n = byte (n % 256) := BitVec.eq_of_toNat_eq (by simp [byte])
  rw [word2, low]

/-- The place of the first entry of a name, counted from 1; 0 when none has it. -/
theorem findIdx?_place {α β : Type} [DecidableEq β] (name : α → β) (b : β) (l : List α) :
    ((l.findIdx? fun e => name e == b).map (· + 1)).getD 0 = if b ∈ l.map name then (l.map name).idxOf b + 1 else 0 := by
  by_cases mem : b ∈ l.map name
  · obtain ⟨a, within, rfl⟩ := List.mem_map.mp mem
    rw [if_pos mem, List.findIdx?_eq_some_of_exists ⟨a, within, beq_self_eq_true (name a)⟩, List.idxOf, List.findIdx_map]
    rfl
  · rw [if_neg mem, List.findIdx?_eq_none_iff.mpr fun a within => ?_]
    · rfl
    · exact beq_false_of_ne fun same => mem (List.mem_map.mpr ⟨a, within, same⟩)

theorem queuePosition_eq (f : Fan) (q : List QueueEntry) : queuePosition f q =
    if f ∈ q.map QueueEntry.fan then (q.map QueueEntry.fan).idxOf f + 1 else 0 := by
  rw [← findIdx?_place]
  unfold queuePosition
  cases q.findIdx? fun e => e.fan == f <;> rfl

theorem firePosition_eq (z : Zone) (l : List FireEntry) : firePosition z l =
    if z ∈ l.map FireEntry.zone then (l.map FireEntry.zone).idxOf z + 1 else 0 := by
  rw [← findIdx?_place]
  unfold firePosition
  cases l.findIdx? fun e => e.zone == z <;> rfl

theorem firePosition_active (limit : Nat) (z : Zone) (l : List FireEntry) :
    decide (0 < firePosition z l ∧ firePosition z l ≤ limit) = decide (z ∈ (l.map FireEntry.zone).take limit) := by
  rw [decide_eq_decide, firePosition_eq]
  by_cases mem : z ∈ l.map FireEntry.zone
  · rw [if_pos mem, List.mem_take_iff_idxOf_lt mem]
    omega
  · rw [if_neg mem]
    exact iff_of_false (by omega) fun within => mem (List.mem_of_mem_take within)

theorem State.inhibitLeft_eq (s : State) (c : Channel) : s.inhibitLeft c =
    ((s.scn.inhibits.find? fun x => x.channel == c).map Inhibit.remaining).getD 0 := by
  unfold State.inhibitLeft
  cases s.scn.inhibits.find? fun x => x.channel == c <;> rfl

theorem Plant.isStaged_eq (p : Plant) (f : Fan) : p.isStaged f = p.fsq.staged.any fun x => x.fan == f := by
  unfold Plant.isStaged
  cases p.fsq.staged <;> rfl

theorem Events.code_eq (x : Events) :
    let bit (i : Nat) (b : Bool) : Nat := if b then 2 ^ i else 0
    x.code = bit 0 x.zoneChange + bit 1 x.gasAlarm + bit 2 x.channelFault + bit 3 x.fireChange + bit 4 x.damperFault +
      bit 5 x.fanTrip + bit 6 x.budgetShort + bit 7 x.supplyChange + bit 8 x.linkTrouble + bit 9 x.linkError +
      bit 10 x.settingsDone + bit 11 x.settingsDefaulted + bit 12 x.powerUp := by
  simp only [flag_eq, Events.code, EventKind.all, List.map_cons, List.map_nil, Events.has, bitsOf_cons, bitsOf_nil]
  omega

theorem openWindows_contains (windows : PerWindow Window) (clock : Dck) (w : WindowNo) :
    (openWindows windows clock).contains w = (clock.isSet && (windows.get w).openAt clock.day clock.minute) := by
  rw [Bool.eq_iff_iff, List.contains_iff_mem, openWindows]
  cases clock.isSet <;> simp

theorem summaryEntries_eq (limit : Nat) (l : List FireEntry) : summaryEntries limit l =
    (List.range l.length).flatMap fun i => (l[i]?.map fun x =>
      [byte x.zone.number, if i < limit then 1#8 else 0#8, flagByte x.alarmPresent]).getD [] := by
  induction l generalizing limit with
  | nil => rfl
  | cons e es ih =>
    rw [List.length_cons, List.range_succ_eq_map, List.flatMap_cons, List.flatMap_map]
    cases limit with
    | zero => simp [summaryEntries, ih]
    | succ n => simp [summaryEntries, ih]

/-! ## Codes -/

theorem flagByte_eq (b : Bool) : flagByte b = byte (if b then 2 ^ 0 else 0) := by cases b <;> rfl

theorem FanState.byte_code (x : FanState) : byte x.code = match x with
    | .off => 0#8 | .queued => 1#8 | .starting => 2#8 | .proving => 3#8 | .running => 4#8 | .stopping => 5#8
    | .tripped => 6#8 | .locked => 7#8 := by cases x <;> rfl

theorem TripCause.byte_code (x : TripCause) : byte x.code = match x with
    | .none => 0#8 | .runTimeout => 1#8 | .airflowTimeout => 2#8 | .airflowLoss => 3#8 | .driveFault => 4#8 := by
  cases x <;> rfl

theorem Condition.byte_code (x : Condition) : byte x.code = match x with
    | .unused => 0#8 | .active => 1#8 | .inhibited => 2#8 | .fault => 3#8 := by cases x <;> rfl

theorem AlarmState.byte_code (x : AlarmState) : byte x.code = match x with
    | .normal => 0#8 | .a1Pending => 1#8 | .a1 => 2#8 | .a2 => 3#8 := by cases x <;> rfl

theorem LinkState.byte_code (x : LinkState) : byte x.code = match x with | .down => 0#8 | .up => 1#8 | .lost => 2#8 := by
  cases x <;> rfl

theorem byte_sourceCode (x : Option Source) : byte (sourceCode x) = match x with
    | none => 0#8 | some .panel => 1#8 | some .fireLink => 2#8 | some .fireContact => 3#8 | some .adjacency => 4#8
    | some .gas => 5#8 | some .bms => 6#8 | some .schedule => 7#8 := by
  rcases x with _ | x
  · rfl
  · cases x <;> rfl

theorem Directive.byte_code (x : Directive) : byte x.code = match x with
    | .idle => 0#8 | .opened => 1#8 | .shut => 2#8 := by cases x <;> rfl

theorem SmokeStatus.byte_code (x : SmokeStatus) : byte x.code = match x with
    | .none => 0#8 | .pending => 1#8 | .confirmedExhaust => 2#8 | .confirmedShut => 3#8 | .failed => 4#8 := by
  cases x <;> rfl

theorem DamperState.byte_code (x : DamperState) : byte x.code = match x with
    | .closed => 0#8 | .opening => 1#8 | .opened => 2#8 | .closing => 3#8 | .fault => 4#8 := by cases x <;> rfl

theorem GroupClass.byte_code (x : GroupClass) : byte x.code = match x with
    | .normal => 0#8 | .high => 1#8 | .fire => 2#8 := by cases x <;> rfl

theorem SupplyState.byte_code (x : SupplyState) : byte x.code = match x with
    | .mains => 0#8 | .generator => 1#8 | .transfer => 2#8 := by cases x <;> rfl

theorem ClaimKind.byte_demand (x : ClaimKind) : byte x.demand = match x with
    | .exhaust demand => byte demand | .shut => 0#8 := by cases x <;> rfl

/-- Flags in the low bits. -/
theorem bitsOf_two (a b : Bool) : bitsOf [a, b] = (if a then 2 ^ 0 else 0) + if b then 2 ^ 1 else 0 := by
  simp only [flag_eq, bitsOf_cons, bitsOf_nil]
  omega

theorem bitsOf_three (a b c : Bool) : bitsOf [a, b, c] =
    (if a then 2 ^ 0 else 0) + (if b then 2 ^ 1 else 0) + if c then 2 ^ 2 else 0 := by
  simp only [flag_eq, bitsOf_cons, bitsOf_nil]
  omega

theorem bitsOf_five (a b c d e : Bool) : bitsOf [a, b, c, d, e] =
    (if a then 2 ^ 0 else 0) + (if b then 2 ^ 1 else 0) + (if c then 2 ^ 2 else 0) + (if d then 2 ^ 3 else 0) +
      if e then 2 ^ 4 else 0 := by
  simp only [flag_eq, bitsOf_cons, bitsOf_nil]
  omega

/-- One flag for each zone, bit z − 1 for zone z. -/
theorem bitsOf_zones (x : Zone → Bool) : bitsOf (Zone.all.map x) =
    (Zone.all.map fun z => if x z then 2 ^ (z.number - 1) else 0).sum := by
  simp only [Zone.all, List.map_cons, List.map_nil, flag_eq, bitsOf_cons, bitsOf_nil, List.sum_cons, List.sum_nil,
    Zone.number]
  omega

theorem bitsOf_windows (x : WindowNo → Bool) : bitsOf (WindowNo.all.map x) =
    (WindowNo.all.map fun w => if x w then 2 ^ (w.number - 1) else 0).sum := by
  simp only [WindowNo.all, List.map_cons, List.map_nil, flag_eq, bitsOf_cons, bitsOf_nil, List.sum_cons, List.sum_nil,
    WindowNo.number]
  omega

/-! ## The reads -/

theorem exec_reads {s : State} (h : s.Addressed) :
    exec .readSummary s = .next (s.replied 1#8 (.doneWith s.hearB.summaryRecord)) ∧
    (∀ n z, n.toNat = Zone.number z → exec (.readZone n) s = .next (s.replied 2#8 (.doneWith (s.zoneRecord z)))) ∧
    (∀ n g, n.toNat = Group.number g → exec (.readGroup n) s = .next (s.replied 3#8 (.doneWith (s.groupRecord g)))) ∧
    (∀ n f, n.toNat = Fan.number f → exec (.readFan n) s = .next (s.replied 4#8 (.doneWith (s.fanRecord f)))) ∧
    (∀ n c, n.toNat = Channel.number c → exec (.readChannel n) s =
      .next ((s.setChannel c { s.channel c with fresh := false }).replied 5#8 (.doneWith (s.channelRecord c)))) ∧
    exec .fetchEvents s = .next (({ s with plant := { s.plant with events := .empty } }).replied 6#8
      (.doneWith (word2 s.plant.events.code))) :=
  ⟨exec_replied .readSummary h rfl,
    fun n z own => exec_replied (.readZone n) h (withZone_number own (fun z s => (s, .doneWith (s.zoneRecord z))) s.hearB),
    fun n g own => exec_replied (.readGroup n) h (withGroup_number own (fun g s => (s, .doneWith (s.groupRecord g))) s.hearB),
    fun n f own => exec_replied (.readFan n) h (withFan_number own (fun f s => (s, .doneWith (s.fanRecord f))) s.hearB),
    fun n c own => exec_answered (.readChannel n) h (withChannel_number own
      (fun c s => (s.setChannel c { s.channel c with fresh := false }, .doneWith (s.channelRecord c))) s.hearB),
    exec_answered .fetchEvents h rfl⟩

theorem State.readSetting_some {s : State} {n : Byte} {i : Word} {b : Block} {v : Nat} (named : Block.ofNumber? n.toNat = some b)
    (item : (s.sst.inForce.copy b).item i.toNat = some v) :
    s.readSetting n i = .doneWith (word2 v ++ [flagByte (s.sst.defaulted.get b)]) := by
  rw [State.readSetting, named, Option.bind_some, item]
  rfl

theorem State.readSetting_none {s : State} {n : Byte} {i : Word}
    (none : ((Block.ofNumber? n.toNat).bind fun b => (s.sst.inForce.copy b).item i.toNat) = none) :
    s.readSetting n i = .refused .range := by
  have nothing : ((Block.ofNumber? n.toNat).bind fun k => ((s.sst.inForce.copy k).item i.toNat).map fun v => (k, v)) = .none := by
    cases named : Block.ofNumber? n.toNat with
    | none => rfl
    | some b =>
      rw [named, Option.bind_some] at none
      rw [Option.bind_some, none]
      rfl
  rw [State.readSetting, nothing]

/-! ## The records -/

theorem Claim.bytes_eq : Claim.bytes = fun c => [byte (sourceCode (some c.source)), byte c.level,
    match c.kind with | .exhaust demand => byte demand | .shut => 0#8,
    byte c.origins.length] ++ c.origins.map fun z => byte z.number := funext fun c => by
  rw [Claim.bytes, ClaimKind.byte_demand]

theorem fireEntryBytes_eq (limit : Nat) (z : Zone) (l : List FireEntry) : fireEntryBytes limit z l =
    [byte (if z ∈ l.map FireEntry.zone then (l.map FireEntry.zone).idxOf z + 1 else 0),
      byte ((if decide (z ∈ (l.map FireEntry.zone).take limit) then 2 ^ 0 else 0) +
        if l.any fun e => e.zone == z && e.alarmPresent then 2 ^ 1 else 0)] := by
  rw [fireEntryBytes]
  rw [firePosition_active, bitsOf_two, firePosition_eq]

theorem State.openWindowMask_eq (s : State) : s.openWindowMask = (WindowNo.all.map fun w =>
    if s.dck.isSet && (s.cfg.windows.get w).openAt s.dck.day s.dck.minute then 2 ^ (w.number - 1) else 0).sum := by
  rw [State.openWindowMask, bitsOf_windows]
  simp only [openWindows_contains]

/-- Settles O30: each read by its handler, each record by its fields. -/
theorem readsAnswerTheirRecords : Obligations.ReadsAnswerTheirRecords := by
  refine ⟨fun s h => ?_, fun x y => ⟨x.code_eq, y.code_eq⟩, fun s => ⟨s.troubleNow_says, ?_⟩⟩
  · obtain ⟨summary, zone, group, fan, channel, events⟩ := exec_reads h
    refine ⟨summary, zone, group, fan, channel, events, fun n b i v named item => ?_, fun n i none => ?_⟩
    · refine exec_replied (.readSetting n i) h ?_
      exact congrArg (Prod.mk _) (State.readSetting_some (s := s.hearB) named item)
    · refine exec_replied (.readSetting n i) h ?_
      exact congrArg (Prod.mk _) (State.readSetting_none (s := s.hearB) none)
  · intro n two left bit source link listed limit
    have words : word2 = two := funext word2_eq
    have sources (x : Option Source) : byte (sourceCode x) = source x := byte_sourceCode x
    have links (x : LinkState) : byte x.code = link x := x.byte_code
    refine ⟨fun f => ?_, fun c => ?_, fun g => ?_, fun z => ?_, ?_⟩
    · intro r queued
      rw [State.fanRecord, FanState.byte_code, TripCause.byte_code, bitsOf_five, Plant.isStaged_eq, queuePosition_eq, words]
      rfl
    · intro r e
      rw [State.channelRecord, Condition.byte_code, AlarmState.byte_code, bitsOf_two, State.inhibitLeft_eq, words]
      rfl
    · intro r
      rw [State.groupRecord, GroupClass.byte_code]
      refine congrArg (· ++ _) (congrArg (· ++ _) ?_)
      cases (s.plant.gal.groups.get g).curtailment <;> rfl
    · intro r d e
      rw [State.zoneRecord, Directive.byte_code, sources, SmokeStatus.byte_code, DamperState.byte_code, bitsOf_three, words,
        fireEntryBytes_eq, Claim.bytes_eq]
      simp only [sources, List.append_assoc, List.cons_append, List.nil_append]
      cases (s.fev.zones.get z).gas <;> rfl
    · rw [State.summaryRecord, SupplyState.byte_code, links, links, words, bitsOf_two, bitsOf_three, bitsOf_zones,
        State.openWindowMask_eq, summaryEntries_eq, flagByte_eq, flagByte_eq, flagByte_eq]
      refine congrArg₂ (· ++ ·) ?_ (List.flatMap_congr fun i _ => ?_)
      · simp only [List.append_assoc, List.cons_append, List.nil_append]
        rfl
      · cases s.plant.fireOrder[i]? with
        | none => rfl
        | some x => simp only [flagByte_eq]; rfl

end Sys2Proof.Machine

/-! The items of the settings blocks: their numbers, their ranges, and what a write sets. -/

namespace Sys2Proof.Machine

/-! ## Values in range -/

theorem inRange_map {α : Type} {lo hi v : Nat} {f : Nat → α} {a : α} :
    (inRange lo hi v).map f = some a ↔ (lo ≤ v ∧ v ≤ hi) ∧ f v = a := by
  unfold inRange
  split
  · rename_i within
    simp [within]
  · rename_i out
    simp [out]

theorem inRange_isSome {lo hi v : Nat} : (inRange lo hi v).isSome = true ↔ lo ≤ v ∧ v ≤ hi := by
  unfold inRange
  split
  · rename_i within
    simp [within]
  · rename_i out
    simp [out]

theorem GasKind.ofCode?_isSome {v : Nat} : (GasKind.ofCode? v).isSome = true ↔ 1 ≤ v ∧ v ≤ 3 := by
  unfold GasKind.ofCode?
  split
  case h_4 one two three =>
    refine iff_of_false (by simp) ?_
    rintro ⟨low, high⟩
    exact (show v = 1 ∨ v = 2 ∨ v = 3 by omega).elim one (·.elim two three)
  all_goals simp

theorem GasKind.code_of_ofCode? {v : Nat} {k : GasKind} (h : GasKind.ofCode? v = some k) : k.code = v := by
  unfold GasKind.ofCode? at h
  split at h <;> cases h <;> rfl

theorem Group.ofNumber?_isSome {v : Nat} : (Group.ofNumber? v).isSome = true ↔ 1 ≤ v ∧ v ≤ 4 := by
  unfold Group.ofNumber?
  split
  case h_5 one two three four =>
    refine iff_of_false (by simp) ?_
    rintro ⟨low, high⟩
    exact (show v = 1 ∨ v = 2 ∨ v = 3 ∨ v = 4 by omega).elim one (·.elim two (·.elim three four))
  all_goals simp

/-! ## What the items of a record are -/

/-- The items of a record by number: reading, writing and the ranges go together, and a write sets its own item and no
other. -/
structure Items {α : Type} (item : α → Nat → Option Nat) (write : α → Nat → Nat → Option α)
    (range : Nat → Option (Nat × Nat)) : Prop where
  named : ∀ b i, (item b i).isSome = (range i).isSome
  taken : ∀ b i v, (write b i v).isSome = true ↔ ∃ r, range i = some r ∧ r.1 ≤ v ∧ v ≤ r.2
  own : ∀ b i v c, write b i v = some c → item c i = some v
  others : ∀ b i v c, write b i v = some c → ∀ j, j ≠ i → item c j = item b j

section
variable {α β γ ι : Type} {item item' : α → Nat → Option Nat} {write write' : α → Nat → Nat → Option α}
  {range range' : Nat → Option (Nat × Nat)}

/-- A record whose items are the entries of a list, which a write replaces one at a time. -/
theorem Items.of_fields (fields : α → List Nat) (ranges : List (Nat × Nat)) (length : ∀ b, (fields b).length = ranges.length)
    (reads : ∀ b i, item b i = (fields b)[i]?)
    (taken : ∀ b i v, (write b i v).isSome = true ↔ ∃ r, ranges[i]? = some r ∧ r.1 ≤ v ∧ v ≤ r.2)
    (sets : ∀ b i v c, write b i v = some c → fields c = (fields b).set i v) : Items item write fun i => ranges[i]? where
  named b i := by
    rw [reads, Bool.eq_iff_iff]
    simp [length]
  taken := taken
  own b i v c h := by
    obtain ⟨r, found, -⟩ := (taken b i v).mp (by rw [h]; rfl)
    rw [reads, sets b i v c h, List.getElem?_set_self]
    rw [length]
    exact (List.getElem?_eq_some_iff.mp found).1
  others b i v c h j other := by
    rw [reads, reads, sets b i v c h, List.getElem?_set_ne other.symm]

/-- A record that keeps one smaller record for each index. -/
theorem Items.family (h : Items item write range) (pick : Nat → Option (ι × Nat)) (get : β → ι → α) (put : β → ι → α → β)
    (once : ∀ i j x, pick i = some x → pick j = some x → i = j) (same : ∀ b x a, get (put b x a) x = a)
    (other : ∀ b x y a, y ≠ x → get (put b x a) y = get b y) :
    Items (fun b i => (pick i).bind fun x => item (get b x.1) x.2)
      (fun b i v => (pick i).bind fun x => (write (get b x.1) x.2 v).map (put b x.1))
      fun i => (pick i).bind fun x => range x.2 where
  named b i := by
    cases pick i with
    | none => rfl
    | some x => exact h.named _ _
  taken b i v := by
    cases pick i with
    | none => simp
    | some x => simpa using h.taken (get b x.1) x.2 v
  own b i v c made := by
    rcases found : pick i with _ | x
    · simp [found] at made
    · rw [found, Option.bind_some] at made
      rw [Option.bind_some]
      obtain ⟨a, wrote, rfl⟩ := Option.map_eq_some_iff.mp made
      rw [same]
      exact h.own _ _ _ _ wrote
  others b i v c made j apart := by
    rcases found : pick i with _ | x
    · simp [found] at made
    · rw [found, Option.bind_some] at made
      obtain ⟨a, wrote, rfl⟩ := Option.map_eq_some_iff.mp made
      rcases found' : pick j with _ | y
      · rfl
      · rw [Option.bind_some, Option.bind_some]
        by_cases index : y.1 = x.1
        · rw [index, same]
          refine h.others _ _ _ _ wrote _ fun place => apart (once j i x ?_ found)
          rw [found', Prod.ext index place]
        · rw [other _ _ _ _ index]

/-- A record with two sets of items under different numbers. -/
theorem Items.or (h : Items item write range) (h' : Items item' write' range')
    (apart : ∀ i, range i = none ∨ range' i = none)
    (first : ∀ b i v c, write b i v = some c → ∀ j, item' c j = item' b j)
    (second : ∀ b i v c, write' b i v = some c → ∀ j, item c j = item b j) :
    Items (fun b i => (item b i).or (item' b i)) (fun b i v => (write b i v).or (write' b i v))
      fun i => (range i).or (range' i) where
  named b i := by rw [Option.isSome_or, Option.isSome_or, h.named, h'.named]
  taken b i v := by
    rcases own : range i with _ | r
    · have unread : write b i v = none := by
        rw [← Option.not_isSome_iff_eq_none, h.taken, own]
        simp
      rw [unread, Option.none_or, Option.none_or, h'.taken]
    · have unread : write' b i v = none := by
        rw [← Option.not_isSome_iff_eq_none, h'.taken, (apart i).resolve_left (by rw [own]; simp)]
        simp
      rw [unread, Option.or_none, h.taken, own, Option.some_or]
  own b i v c made := by
    rcases wrote : write b i v with _ | d
    · rw [wrote, Option.none_or] at made
      obtain ⟨r, found, -⟩ := (h'.taken b i v).mp (by rw [made]; rfl)
      have absent : item c i = none := by
        rw [second b i v c made, ← Option.not_isSome_iff_eq_none, h.named,
          (apart i).resolve_right (by rw [found]; simp)]
        simp
      rw [absent, Option.none_or, h'.own b i v c made]
    · rw [wrote, Option.some_or, Option.some.injEq] at made
      rw [h.own b i v c (made ▸ wrote), Option.some_or]
  others b i v c made j different := by
    rcases wrote : write b i v with _ | d
    · rw [wrote, Option.none_or] at made
      rw [second b i v c made, h'.others b i v c made j different]
    · rw [wrote, Option.some_or, Option.some.injEq] at made
      rw [h.others b i v c (made ▸ wrote) j different, first b i v c (made ▸ wrote)]

/-- The same items under other names. -/
theorem Items.congr (h : Items item write range) (reads : ∀ b i, item' b i = item b i)
    (writes : ∀ b i v, write' b i v = write b i v) (ranges : ∀ i, range' i = range i) : Items item' write' range' := by
  obtain rfl : item' = item := funext fun b => funext (reads b)
  obtain rfl : write' = write := funext fun b => funext fun i => funext (writes b i)
  obtain rfl : range' = range := funext ranges
  exact h

end

/-! ## The smaller records -/

def Window.fields (w : Window) : List Nat := [w.days.toNat, w.start, w.stop, w.zones.toNat, w.demand]

theorem Window.items : Items Window.item Window.write fun k =>
    [(0, 127), (0, 1439), (0, 1439), (0, 255), (10, 100)][k]? :=
  .of_fields Window.fields _ (fun _ => rfl) (fun b i => by rcases i with _ | _ | _ | _ | _ | i <;> rfl)
    (fun b i v => by rcases i with _ | _ | _ | _ | _ | i <;> simp [Window.write, inRange_isSome])
    fun b i v c h => by
      rcases i with _ | _ | _ | _ | _ | i
      case succ.succ.succ.succ.succ => cases h
      all_goals
        obtain ⟨within, rfl⟩ := inRange_map.mp h
        simp [Window.fields]
      all_goals omega

def ZoneVenting.fields (x : ZoneVenting) : List Nat := [x.vStart, x.runOn, x.faultDemand]

theorem ZoneVenting.items : Items ZoneVenting.item ZoneVenting.write fun k => [(10, 50), (0, 3600), (0, 100)][k]? :=
  .of_fields ZoneVenting.fields _ (fun _ => rfl) (fun b i => by rcases i with _ | _ | _ | i <;> rfl)
    (fun b i v => by rcases i with _ | _ | _ | i <;> simp [ZoneVenting.write, inRange_isSome])
    fun b i v c h => by
      rcases i with _ | _ | _ | i
      case succ.succ.succ => cases h
      all_goals
        obtain ⟨within, rfl⟩ := inRange_map.mp h
        rfl

def ChannelSetting.fields (x : ChannelSetting) : List Nat :=
  [zoneCode x.zone, x.kind.code, x.fullScale, x.start, x.alarm1, x.alarm2, x.hysteresis, x.alarmDelay]

theorem zoneCode_ofNumber? {v : Nat} (h : v ≤ 8) : zoneCode (Zone.ofNumber? v) = v := by
  interval_cases v <;> rfl

theorem ChannelSetting.items : Items ChannelSetting.item ChannelSetting.write fun k =>
    [(0, 8), (1, 3), (10, 10000), (1, 10000), (1, 10000), (1, 10000), (0, 9999), (0, 600)][k]? :=
  .of_fields ChannelSetting.fields _ (fun _ => rfl)
    (fun b i => by rcases i with _ | _ | _ | _ | _ | _ | _ | _ | i <;> rfl)
    (fun b i v => by
      rcases i with _ | _ | _ | _ | _ | _ | _ | _ | i <;>
        simp [ChannelSetting.write, inRange_isSome, GasKind.ofCode?_isSome])
    fun b i v c h => by
      rcases i with _ | _ | _ | _ | _ | _ | _ | _ | i
      case succ.zero =>
        obtain ⟨k, named, rfl⟩ := Option.map_eq_some_iff.mp h
        simp [ChannelSetting.fields, GasKind.code_of_ofCode? named]
      case succ.succ.succ.succ.succ.succ.succ.succ => cases h
      case zero =>
        obtain ⟨within, rfl⟩ := inRange_map.mp h
        simp [ChannelSetting.fields, zoneCode_ofNumber? within.2]
      all_goals
        obtain ⟨within, rfl⟩ := inRange_map.mp h
        rfl

/-! ## The blocks -/

/-- A write of a block, by the write of its own record. -/
theorem Items.block {α : Type} {item : α → Nat → Option Nat} {write : α → Nat → Nat → Option α}
    {range : Nat → Option (Nat × Nat)} (h : Items item write range) (wrap : α → BlockValue)
    (block : ∀ x y, (wrap x).block = (wrap y).block) (x : α) (i v : Nat)
    (reads : ∀ y j, (wrap y).item j = item y j) (writes : (wrap x).write i v = (write x i v).map wrap)
    (ranges : ∀ j, (wrap x).block.itemRange j = range j) :
    (((wrap x).item i).isSome = true ↔ ((wrap x).block.itemRange i).isSome = true) ∧
      (((wrap x).write i v).isSome = true ↔ ∃ r, (wrap x).block.itemRange i = some r ∧ r.1 ≤ v ∧ v ≤ r.2) ∧
      ∀ b, (wrap x).write i v = some b → b.block = (wrap x).block ∧ b.item i = some v ∧
        ∀ j, j ≠ i → b.item j = (wrap x).item j := by
  rw [reads, writes, ranges, h.named, Option.isSome_map, h.taken]
  refine ⟨Iff.rfl, Iff.rfl, fun b made => ?_⟩
  obtain ⟨y, wrote, rfl⟩ := Option.map_eq_some_iff.mp made
  refine ⟨block y x, ?_, fun j other => ?_⟩
  · rw [reads, h.own x i v y wrote]
  · rw [reads, reads, h.others x i v y wrote j other]

theorem Option.bind_const {α β : Type} (o : Option α) (r : Option β) :
    (o.bind fun _ => r) = if o.isSome = true then r else none := by cases o <;> rfl

/-! ### Numbers -/

theorem Zone.number_of_ofNumber? {n : Nat} {x : Zone} (h : Zone.ofNumber? n = some x) : x.number = n := by
  unfold Zone.ofNumber? at h
  split at h <;> cases h <;> rfl

theorem Group.number_of_ofNumber? {n : Nat} {x : Group} (h : Group.ofNumber? n = some x) : x.number = n := by
  unfold Group.ofNumber? at h
  split at h <;> cases h <;> rfl

theorem Fan.number_of_ofNumber? {n : Nat} {x : Fan} (h : Fan.ofNumber? n = some x) : x.number = n := by
  unfold Fan.ofNumber? at h
  split at h <;> cases h <;> rfl

theorem Channel.number_of_ofNumber? {n : Nat} {x : Channel} (h : Channel.ofNumber? n = some x) : x.number = n := by
  unfold Channel.ofNumber? at h
  split at h <;> cases h <;> rfl

theorem WindowNo.number_of_ofNumber? {n : Nat} {x : WindowNo} (h : WindowNo.ofNumber? n = some x) : x.number = n := by
  unfold WindowNo.ofNumber? at h
  split at h <;> cases h <;> rfl

/-- Numbers 1 to `last` stand for the values of an index, one each. -/
structure Numbered {ι : Type} (of : Nat → Option ι) (number : ι → Nat) (last : Nat) : Prop where
  number_of : ∀ n x, of n = some x → number x = n
  of_number : ∀ x, of (number x) = some x
  bounds : ∀ x, 1 ≤ number x ∧ number x ≤ last
  all : ∀ n, 1 ≤ n → n ≤ last → (of n).isSome = true

theorem Zone.numbered : Numbered Zone.ofNumber? Zone.number 8 where
  number_of _ _ := Zone.number_of_ofNumber?
  of_number := Zone.ofNumber?_number
  bounds x := by cases x <;> decide
  all n low high := by interval_cases n <;> rfl

theorem Group.numbered : Numbered Group.ofNumber? Group.number 4 where
  number_of _ _ := Group.number_of_ofNumber?
  of_number := Group.ofNumber?_number
  bounds x := by cases x <;> decide
  all n low high := by interval_cases n <;> rfl

theorem Fan.numbered : Numbered Fan.ofNumber? Fan.number 12 where
  number_of _ _ := Fan.number_of_ofNumber?
  of_number := Fan.ofNumber?_number
  bounds x := by cases x <;> decide
  all n low high := by interval_cases n <;> rfl

theorem Channel.numbered : Numbered Channel.ofNumber? Channel.number 16 where
  number_of _ _ := Channel.number_of_ofNumber?
  of_number := Channel.ofNumber?_number
  bounds x := by cases x <;> decide
  all n low high := by interval_cases n <;> rfl

theorem WindowNo.numbered : Numbered WindowNo.ofNumber? WindowNo.number 4 where
  number_of _ _ := WindowNo.number_of_ofNumber?
  of_number := WindowNo.ofNumber?_number
  bounds x := by cases x <;> decide
  all n low high := by interval_cases n <;> rfl

section
variable {ι : Type} {of : Nat → Option ι} {number : ι → Nat} {last : Nat}

theorem Numbered.isSome (h : Numbered of number last) {n : Nat} : (of n).isSome = true ↔ 1 ≤ n ∧ n ≤ last := by
  refine ⟨fun some => ?_, fun within => h.all n within.1 within.2⟩
  obtain ⟨x, named⟩ := Option.isSome_iff_exists.mp some
  exact h.number_of n x named ▸ h.bounds x

theorem Numbered.unnamed (h : Numbered of number last) {n : Nat} (out : n < 1 ∨ last < n) : of n = none := by
  rw [← Option.not_isSome_iff_eq_none, h.isSome]
  omega

/-! ### Which item a number names -/

/-- Item `i` of a block is item `i - base` modulo `d` of the record for the index with the number of the quotient. -/
def itemIn (of : Nat → Option ι) (base d i : Nat) : Option (ι × Nat) :=
  if i < base then none else (of ((i - base) / d + 1)).map fun x => (x, (i - base) % d)

theorem Numbered.itemIn_once (h : Numbered of number last) {base d : Nat} (i j : Nat) (x : ι × Nat)
    (hi : itemIn of base d i = some x) (hj : itemIn of base d j = some x) : i = j := by
  have place {k : Nat} (hk : itemIn of base d k = some x) :
      base ≤ k ∧ number x.1 = (k - base) / d + 1 ∧ (k - base) % d = x.2 := by
    unfold itemIn at hk
    split at hk
    · cases hk
    · rename_i from_
      obtain ⟨y, named, rfl⟩ := Option.map_eq_some_iff.mp hk
      exact ⟨Nat.le_of_not_lt from_, h.number_of _ y named, rfl⟩
  obtain ⟨fromI, quotI, remI⟩ := place hi
  obtain ⟨fromJ, quotJ, remJ⟩ := place hj
  have quot : (i - base) / d = (j - base) / d := Nat.succ.inj (quotI.symm.trans quotJ)
  have same : i - base = j - base := by
    rw [← Nat.div_add_mod (i - base) d, ← Nat.div_add_mod (j - base) d, quot, remI, remJ]
  omega

theorem Numbered.itemIn_range (h : Numbered of number last) {base d : Nat} (pos : 0 < d) (i : Nat)
    (r : Nat → Option (Nat × Nat)) : ((itemIn of base d i).bind fun x => r x.2) =
      if base ≤ i ∧ i < base + last * d then r ((i - base) % d) else none := by
  unfold itemIn
  split
  · rename_i before
    rw [if_neg (by omega)]
    rfl
  · rename_i from_
    have upTo : (of ((i - base) / d + 1)).isSome = true ↔ i < base + last * d := by
      have quot : (i - base) / d < last ↔ i - base < last * d := Nat.div_lt_iff_lt_mul pos
      rw [h.isSome]
      generalize (i - base) / d = q at quot ⊢
      omega
    rw [Option.bind_map]
    refine (Option.bind_const (of ((i - base) / d + 1)) (r ((i - base) % d))).trans ?_
    simp only [upTo, Nat.le_of_not_lt from_, true_and]

/-- Item `i` of a block is the one item of the index with number `i - base`. -/
def itemAt (of : Nat → Option ι) (base i : Nat) : Option (ι × Nat) := (of (i - base)).map fun x => (x, 0)

theorem Numbered.itemAt_once (h : Numbered of number last) {base : Nat} (i j : Nat) (x : ι × Nat)
    (hi : itemAt of base i = some x) (hj : itemAt of base j = some x) : i = j := by
  have place {k : Nat} (hk : itemAt of base k = some x) : number x.1 = k - base := by
    obtain ⟨y, named, rfl⟩ := Option.map_eq_some_iff.mp hk
    exact h.number_of _ y named
  have pos := (h.bounds x.1).1
  have same := (place hi).symm.trans (place hj)
  rw [place hi] at pos
  omega

theorem Numbered.itemAt_range (h : Numbered of number last) {base : Nat} (i : Nat) (r : Nat → Option (Nat × Nat)) :
    ((itemAt of base i).bind fun x => r x.2) = if base + 1 ≤ i ∧ i ≤ base + last then r 0 else none := by
  have within : (of (i - base)).isSome = true ↔ base + 1 ≤ i ∧ i ≤ base + last := by
    rw [h.isSome]
    omega
  rw [itemAt, Option.bind_map]
  refine (Option.bind_const (of _) (r 0)).trans ?_
  simp only [within]

end

/-- Item `n` of a block and no other. -/
def itemOnly (n i : Nat) : Option (Unit × Nat) := if i = n then some ((), 0) else none

theorem itemOnly_once {n : Nat} (i j : Nat) (x : Unit × Nat) (hi : itemOnly n i = some x) (hj : itemOnly n j = some x) :
    i = j := by
  unfold itemOnly at hi hj
  split at hi
  · split at hj
    · omega
    · cases hj
  · cases hi

theorem itemOnly_range {n : Nat} (i : Nat) (r : Nat → Option (Nat × Nat)) :
    ((itemOnly n i).bind fun x => r x.2) = if i = n then r 0 else none := by
  unfold itemOnly
  split <;> rfl

/-! ### Records of one number -/

/-- A value with one number, a write of which is taken in a range. -/
theorem Items.single {α : Type} (code : α → Nat) (of : Nat → Option α) (lo hi : Nat)
    (taken : ∀ v, (of v).isSome = true ↔ lo ≤ v ∧ v ≤ hi) (back : ∀ v a, of v = some a → code a = v) :
    Items (fun a k => [code a][k]?) (fun _ k v => if k = 0 then of v else none) fun k => [(lo, hi)][k]? :=
  .of_fields (fun a => [code a]) _ (fun _ => rfl) (fun _ _ => rfl)
    (fun a k v => by rcases k with _ | k <;> simp [taken])
    fun a k v c h => by
      rcases k with _ | k
      · simp [back v c h]
      · cases h

/-- What every replacement of one of a block's records keeps, a write keeps. -/
theorem keeps_family {α β ι : Type} {o : Option (ι × Nat)} {w : ι × Nat → Option β} {put : ι × Nat → β → α} {c : α}
    (h : (o.bind fun x => (w x).map (put x)) = some c) {R : α → Prop} (each : ∀ x a, R (put x a)) : R c := by
  obtain ⟨x, -, h⟩ := Option.bind_eq_some_iff.mp h
  obtain ⟨a, -, rfl⟩ := Option.map_eq_some_iff.mp h
  exact each x a

/-! ### The blocks one by one -/

theorem WindowsBlock.items : Items (fun (b : PerWindow Window) i => (BlockValue.windows b).item i)
    (fun b i v => if i = 0 then none
      else (WindowNo.ofNumber? ((i - 1) / 5 + 1)).bind fun w => ((b.get w).write ((i - 1) % 5) v).map fun x => b.set w x)
    (Block.itemRange .windows) := by
  refine (Window.items.family (itemIn WindowNo.ofNumber? 1 5) PerWindow.get PerWindow.set WindowNo.numbered.itemIn_once
    (fun b x a => (PerWindow.get_set ..).trans (if_pos rfl)) fun b x y a other =>
    (PerWindow.get_set ..).trans (if_neg other)).congr (fun b i => ?_) (fun b i v => ?_) fun i => ?_
  · rw [BlockValue.item, itemIn]
    simp only [Nat.lt_one_iff]
    split
    · rfl
    · rw [Option.bind_map]
      rfl
  · rw [itemIn]
    simp only [Nat.lt_one_iff]
    split
    · rfl
    · rw [Option.bind_map]
      rfl
  · rw [WindowNo.numbered.itemIn_range (by decide), Block.itemRange]
    simp only [show i < 1 + 4 * 5 ↔ i ≤ 20 by omega]

theorem ChannelsBlock.items : Items ChannelsBlock.item ChannelsBlock.write (Block.itemRange .channels) := by
  have channels := ChannelSetting.items.family (itemIn Channel.ofNumber? 1 8) (β := ChannelsBlock)
    (fun b c => b.channel.get c) (fun b c x => { b with channel := b.channel.set c x }) Channel.numbered.itemIn_once
    (fun b x a => (PerChannel.get_set ..).trans (if_pos rfl)) fun b x y a other =>
      (PerChannel.get_set ..).trans (if_neg other)
  have zones := ZoneVenting.items.family (itemIn Zone.ofNumber? 129 3) (β := ChannelsBlock)
    (fun b z => b.zone.get z) (fun b z x => { b with zone := b.zone.set z x }) Zone.numbered.itemIn_once
    (fun b x a => (PerZone.get_set ..).trans (if_pos rfl)) fun b x y a other =>
      (PerZone.get_set ..).trans (if_neg other)
  have low {i : Nat} (h : i ≤ 128) : itemIn Zone.ofNumber? 129 3 i = none := if_pos (by omega)
  have high {i : Nat} (h : ¬ i ≤ 128) : itemIn Channel.ofNumber? 1 8 i = none := by
    rw [itemIn, Channel.numbered.unnamed (by omega)]
    split <;> rfl
  refine (channels.or zones (fun i => ?_)
    (fun b i v c h j => ?_) fun b i v c h j => ?_).congr (fun b i => ?_) (fun b i v => ?_) fun i => ?_
  · by_cases h : i ≤ 128
    · exact .inr (by rw [low h]; rfl)
    · exact .inl (by rw [high h]; rfl)
  · have same : c.zone = b.zone := keeps_family (R := fun c => c.zone = b.zone) h fun _ _ => rfl
    rw [same]
  · have same : c.channel = b.channel := keeps_family (R := fun c => c.channel = b.channel) h fun _ _ => rfl
    rw [same]
  all_goals by_cases zero : i = 0
  · rw [zero]
    rfl
  · unfold ChannelsBlock.item
    rw [if_neg zero]
    by_cases h : i ≤ 128
    · rw [if_pos h, low h, itemIn, if_neg (by omega), Option.bind_map]
      exact (Option.or_none).symm
    · rw [if_neg h, high h, Option.bind_none, Option.none_or, itemIn, if_neg (by omega), Option.bind_map]
      simp only [Function.comp_def]
  · rw [zero]
    rfl
  · unfold ChannelsBlock.write
    rw [if_neg zero]
    by_cases h : i ≤ 128
    · rw [if_pos h, low h, itemIn, if_neg (by omega), Option.bind_map]
      exact (Option.or_none).symm
    · rw [if_neg h, high h, Option.bind_none, Option.none_or, itemIn, if_neg (by omega), Option.bind_map]
      simp only [Function.comp_def]
  · rw [zero]
    rfl
  · rw [Channel.numbered.itemIn_range (by decide), Zone.numbered.itemIn_range (by decide), Block.itemRange]
    by_cases h : i ≤ 128
    · rw [if_pos (show 1 ≤ i ∧ i ≤ 128 by omega), if_pos (by omega), if_neg (by omega)]
      exact (Option.or_none).symm
    · rw [if_neg (show ¬ (1 ≤ i ∧ i ≤ 128) by omega), if_neg (show ¬ (1 ≤ i ∧ i < 1 + 16 * 8) by omega), Option.none_or]
      simp only [show i < 129 + 8 * 3 ↔ i ≤ 152 by omega]

theorem groupCode_ofNumber? {v : Nat} (h : v ≤ 4) : groupCode (Group.ofNumber? v) = v := by
  interval_cases v <;> rfl

theorem Group.items : Items (fun g k => [Group.number g][k]?) (fun _ k v => if k = 0 then Group.ofNumber? v else none)
    fun k => [(1, 4)][k]? :=
  .single Group.number Group.ofNumber? 1 4 (fun _ => Group.ofNumber?_isSome) fun _ _ => Group.number_of_ofNumber?

/-- A number within a range. -/
theorem Nat.items (lo hi : Nat) : Items (fun n k => [n][k]?) (fun _ k v => if k = 0 then inRange lo hi v else none)
    fun k => [(lo, hi)][k]? :=
  .single id (inRange lo hi) lo hi (fun _ => inRange_isSome) fun v a h => by
    unfold inRange at h
    split at h <;> cases h
    rfl

/-- A number within a range that stands for a value. -/
theorem coded_items {α : Type} (code : α → Nat) (of : Nat → α) (lo hi : Nat) (back : ∀ v, v ≤ hi → code (of v) = v) :
    Items (fun a k => [code a][k]?) (fun _ k v => if k = 0 then (inRange lo hi v).map of else none)
      fun k => [(lo, hi)][k]? :=
  .single code (fun v => (inRange lo hi v).map of) lo hi (fun v => by rw [Option.isSome_map, inRange_isSome]) fun v a h => by
    obtain ⟨within, rfl⟩ := inRange_map.mp h
    exact back v within.2

theorem FansBlock.items : Items FansBlock.item FansBlock.write (Block.itemRange .fans) := by
  have group := (coded_items groupCode Group.ofNumber? 0 4 fun _ => groupCode_ofNumber?).family
    (itemAt Fan.ofNumber? 0) (β := FansBlock) (fun b f => b.group.get f) (fun b f x => { b with group := b.group.set f x })
    Fan.numbered.itemAt_once (fun b x a => (PerFan.get_set ..).trans (if_pos rfl)) fun b x y a other =>
      (PerFan.get_set ..).trans (if_neg other)
  have rated := (Nat.items 1 1500).family
    (itemAt Fan.ofNumber? 12) (β := FansBlock) (fun b f => b.rated.get f) (fun b f x => { b with rated := b.rated.set f x })
    Fan.numbered.itemAt_once (fun b x a => (PerFan.get_set ..).trans (if_pos rfl)) fun b x y a other =>
      (PerFan.get_set ..).trans (if_neg other)
  have vMin := (Nat.items 20 60).family
    (itemAt Group.ofNumber? 24) (β := FansBlock) (fun b g => b.vMin.get g) (fun b g x => { b with vMin := b.vMin.set g x })
    Group.numbered.itemAt_once (fun b x a => (PerGroup.get_set ..).trans (if_pos rfl)) fun b x y a other =>
      (PerGroup.get_set ..).trans (if_neg other)
  refine (group.or (rated.or vMin (fun i => ?_) (fun b i v c h j => ?_) fun b i v c h j => ?_) (fun i => ?_)
    (fun b i v c h j => ?_) fun b i v c h j => ?_).congr (fun b i => ?_) (fun b i v => ?_) fun i => ?_
  · rw [Fan.numbered.itemAt_range, Group.numbered.itemAt_range]
    by_cases within : i ≤ 24
    · exact .inr (if_neg (by omega))
    · exact .inl (if_neg (by omega))
  · have same : c.vMin = b.vMin := keeps_family (R := fun c => c.vMin = b.vMin) h fun _ _ => rfl
    rw [same]
  · have same : c.rated = b.rated := keeps_family (R := fun c => c.rated = b.rated) h fun _ _ => rfl
    rw [same]
  · rw [Fan.numbered.itemAt_range, Fan.numbered.itemAt_range, Group.numbered.itemAt_range]
    by_cases within : i ≤ 12
    · exact .inr (by rw [if_neg (by omega), if_neg (by omega)]; rfl)
    · exact .inl (if_neg (by omega))
  · have same : c.rated = b.rated ∧ c.vMin = b.vMin :=
      keeps_family (R := fun c => c.rated = b.rated ∧ c.vMin = b.vMin) h fun _ _ => ⟨rfl, rfl⟩
    rw [same.1, same.2]
  · have same : c.group = b.group := (Option.or_eq_some_iff.mp h).elim
      (fun h => keeps_family (R := fun c => c.group = b.group) h fun _ _ => rfl)
      fun h => keeps_family (R := fun c => c.group = b.group) h.2 fun _ _ => rfl
    rw [same]
  · unfold FansBlock.item itemAt
    simp only [Nat.sub_zero]
    cases Fan.ofNumber? i <;> cases Fan.ofNumber? (i - 12) <;> cases Group.ofNumber? (i - 24) <;> rfl
  · unfold FansBlock.write itemAt
    simp only [Nat.sub_zero]
    by_cases first : i ≤ 12
    · rw [Fan.numbered.unnamed (n := i - 12) (by omega), Group.numbered.unnamed (n := i - 24) (by omega)]
      cases Fan.ofNumber? i with
      | none => rfl
      | some f => cases inRange 0 4 v <;> rfl
    · rw [Fan.numbered.unnamed (n := i) (by omega)]
      by_cases second : i ≤ 24
      · rw [Group.numbered.unnamed (n := i - 24) (by omega)]
        cases Fan.ofNumber? (i - 12) with
        | none => rfl
        | some f => exact Option.or_none.symm
      · rw [Fan.numbered.unnamed (n := i - 12) (by omega)]
        cases Group.ofNumber? (i - 24) <;> rfl
  · rw [Fan.numbered.itemAt_range, Fan.numbered.itemAt_range, Group.numbered.itemAt_range, Block.itemRange]
    simp only [Nat.zero_add]
    split
    · rfl
    · split <;> rfl

theorem mask_items : Items (fun (m : BitVec 8) k => [m.toNat][k]?)
    (fun _ k v => if k = 0 then (inRange 0 255 v).map (BitVec.ofNat 8) else none) fun k => [(0, 255)][k]? :=
  coded_items BitVec.toNat (BitVec.ofNat 8) 0 255 fun v h => by
    rw [BitVec.toNat_ofNat]
    omega

theorem ZonesBlock.items : Items ZonesBlock.item ZonesBlock.write (Block.itemRange .zones) := by
  have group := Group.items.family (itemAt Zone.ofNumber? 0) (β := ZonesBlock) (fun b z => b.group.get z)
    (fun b z x => { b with group := b.group.set z x }) Zone.numbered.itemAt_once
    (fun b x a => (PerZone.get_set ..).trans (if_pos rfl)) fun b x y a other => (PerZone.get_set ..).trans (if_neg other)
  have adjacency := mask_items.family (itemAt Zone.ofNumber? 8) (β := ZonesBlock) (fun b z => b.adjacency.get z)
    (fun b z x => { b with adjacency := b.adjacency.set z x }) Zone.numbered.itemAt_once
    (fun b x a => (PerZone.get_set ..).trans (if_pos rfl)) fun b x y a other => (PerZone.get_set ..).trans (if_neg other)
  have contact := mask_items.family (itemOnly 17) (β := ZonesBlock) (fun b _ => b.contactExhaust)
    (fun b _ x => { b with contactExhaust := x }) itemOnly_once (fun _ _ _ => rfl) fun _ _ _ _ other => absurd rfl other
  have limit := (Nat.items 1 3).family (itemOnly 18) (β := ZonesBlock) (fun b _ => b.originLimit)
    (fun b _ x => { b with originLimit := x }) itemOnly_once (fun _ _ _ => rfl) fun _ _ _ _ other => absurd rfl other
  have single := contact.or limit
    (fun i => by
      rw [itemOnly_range, itemOnly_range]
      by_cases own : i = 17
      · exact .inr (if_neg (by omega))
      · exact .inl (if_neg own))
    (fun b i v c h j => by
      have same : c.originLimit = b.originLimit :=
        keeps_family (R := fun c => c.originLimit = b.originLimit) h fun _ _ => rfl
      rw [same])
    fun b i v c h j => by
      have same : c.contactExhaust = b.contactExhaust :=
        keeps_family (R := fun c => c.contactExhaust = b.contactExhaust) h fun _ _ => rfl
      rw [same]
  have later := adjacency.or single
    (fun i => by
      rw [Zone.numbered.itemAt_range, itemOnly_range, itemOnly_range]
      by_cases within : i ≤ 16
      · exact .inr (by rw [if_neg (by omega), if_neg (by omega)]; rfl)
      · exact .inl (if_neg (by omega)))
    (fun b i v c h j => by
      have same : c.contactExhaust = b.contactExhaust ∧ c.originLimit = b.originLimit :=
        keeps_family (R := fun c => c.contactExhaust = b.contactExhaust ∧ c.originLimit = b.originLimit) h
          fun _ _ => ⟨rfl, rfl⟩
      rw [same.1, same.2])
    fun b i v c h j => by
      have same : c.adjacency = b.adjacency := (Option.or_eq_some_iff.mp h).elim
        (fun h => keeps_family (R := fun c => c.adjacency = b.adjacency) h fun _ _ => rfl)
        fun h => keeps_family (R := fun c => c.adjacency = b.adjacency) h.2 fun _ _ => rfl
      rw [same]
  refine (group.or later (fun i => ?_) (fun b i v c h j => ?_) fun b i v c h j => ?_).congr (fun b i => ?_)
    (fun b i v => ?_) fun i => ?_
  · rw [Zone.numbered.itemAt_range, Zone.numbered.itemAt_range, itemOnly_range, itemOnly_range]
    by_cases within : i ≤ 8
    · exact .inr (by rw [if_neg (by omega), if_neg (by omega), if_neg (by omega)]; rfl)
    · exact .inl (if_neg (by omega))
  · have same : c.adjacency = b.adjacency ∧ c.contactExhaust = b.contactExhaust ∧ c.originLimit = b.originLimit :=
      keeps_family (R := fun c => c.adjacency = b.adjacency ∧ c.contactExhaust = b.contactExhaust ∧
        c.originLimit = b.originLimit) h fun _ _ => ⟨rfl, rfl, rfl⟩
    rw [same.1, same.2.1, same.2.2]
  · have same : c.group = b.group := (Option.or_eq_some_iff.mp h).elim
      (fun h => keeps_family (R := fun c => c.group = b.group) h fun _ _ => rfl)
      fun h => (Option.or_eq_some_iff.mp h.2).elim
        (fun h => keeps_family (R := fun c => c.group = b.group) h fun _ _ => rfl)
        fun h => keeps_family (R := fun c => c.group = b.group) h.2 fun _ _ => rfl
    rw [same]
  · unfold ZonesBlock.item itemAt itemOnly
    simp only [Nat.sub_zero]
    cases Zone.ofNumber? i <;> cases Zone.ofNumber? (i - 8)
    · by_cases contact : i = 17
      · rw [if_pos contact, if_pos contact]
        rfl
      · rw [if_neg contact, if_neg contact]
        by_cases limit : i = 18
        · rw [if_pos limit, if_pos limit]
          rfl
        · rw [if_neg limit, if_neg limit]
          rfl
    all_goals rfl
  · unfold ZonesBlock.write itemAt itemOnly
    simp only [Nat.sub_zero]
    by_cases first : i ≤ 8
    · simp only [Zone.numbered.unnamed (n := i - 8) (by omega), show ¬ i = 17 by omega, show ¬ i = 18 by omega, if_false]
      cases Zone.ofNumber? i with
      | none => rfl
      | some z => cases Group.ofNumber? v <;> rfl
    · rw [Zone.numbered.unnamed (n := i) (by omega)]
      by_cases second : i ≤ 16
      · simp only [show ¬ i = 17 by omega, show ¬ i = 18 by omega, if_false]
        cases Zone.ofNumber? (i - 8) with
        | none => rfl
        | some z => cases inRange 0 255 v <;> rfl
      · rw [Zone.numbered.unnamed (n := i - 8) (by omega)]
        by_cases contact : i = 17
        · simp only [contact, show ¬ 17 = 18 by omega, if_true, if_false]
          cases inRange 0 255 v <;> rfl
        · simp only [contact, if_false]
          by_cases limit : i = 18
          · rw [if_pos limit, if_pos limit]
            rfl
          · rw [if_neg limit, if_neg limit]
            rfl
  · rw [Zone.numbered.itemAt_range, Zone.numbered.itemAt_range, itemOnly_range, itemOnly_range, Block.itemRange]
    simp only [Nat.zero_add]
    by_cases contact : i = 17
    · subst contact
      rfl
    · simp only [contact, if_false, show 9 ≤ i ∧ i ≤ 17 ↔ 8 + 1 ≤ i ∧ i ≤ 8 + 8 by omega]
      split
      · rfl
      · split <;> rfl

/-- The items of a block that is one record, counted from 1. -/
def fromOne (i : Nat) : Option (Unit × Nat) := if i = 0 then none else some ((), i - 1)

theorem fromOne_once (i j : Nat) (x : Unit × Nat) (hi : fromOne i = some x) (hj : fromOne j = some x) : i = j := by
  unfold fromOne at hi hj
  split at hi
  · cases hi
  · split at hj
    · cases hj
    · have same := congrArg (Option.map Prod.snd) (hi.trans hj.symm)
      simp at same
      omega

theorem Items.fromOne {α : Type} {item : α → Nat → Option Nat} {write : α → Nat → Nat → Option α}
    {ranges : Nat → Option (Nat × Nat)} (h : Items (fun b k => item b (k + 1)) (fun b k v => write b (k + 1) v) ranges)
    (unread : ∀ b, item b 0 = none) (unwritten : ∀ b v, write b 0 v = none) :
    Items item write fun i => if i = 0 then none else ranges (i - 1) := by
  refine (h.family Machine.fromOne (fun b _ => b) (fun _ _ a => a) fromOne_once (fun _ _ _ => rfl)
    fun _ _ _ _ other => absurd rfl other).congr (fun b i => ?_) (fun b i v => ?_) fun i => ?_
  · cases i with
    | zero => exact unread b
    | succ k => rfl
  · cases i with
    | zero => exact unwritten b v
    | succ k => exact Option.map_id'.symm
  · cases i <;> rfl

def TimersBlock.fields (x : TimersBlock) : List Nat :=
  [x.travel, x.tRun, x.tProve, x.spacing, x.coast, x.rampStep, x.settle, x.fLink, x.bLink, x.inhibit]

theorem TimersBlock.items : Items TimersBlock.item TimersBlock.write (Block.itemRange .timers) := by
  refine .fromOne (.of_fields TimersBlock.fields _ (fun _ => rfl) (fun b i => ?_) (fun b i v => ?_) fun b i v c h => ?_)
    (fun _ => rfl) fun _ _ => rfl
  · rcases i with _ | _ | _ | _ | _ | _ | _ | _ | _ | _ | i <;> rfl
  · rcases i with _ | _ | _ | _ | _ | _ | _ | _ | _ | _ | i <;> simp [TimersBlock.write, inRange_isSome]
  · rcases i with _ | _ | _ | _ | _ | _ | _ | _ | _ | _ | i
    case succ.succ.succ.succ.succ.succ.succ.succ.succ.succ => cases h
    all_goals
      obtain ⟨within, rfl⟩ := inRange_map.mp h
      rfl

def BudgetBlock.fields (x : BudgetBlock) : List Nat := [x.mains, x.generator]

theorem BudgetBlock.items : Items BudgetBlock.item BudgetBlock.write (Block.itemRange .budget) := by
  refine (Items.fromOne (.of_fields BudgetBlock.fields [(0, 9999), (0, 9999)] (fun _ => rfl) (fun b i => ?_)
    (fun b i v => ?_) fun b i v c h => ?_) (fun _ => rfl) fun _ _ => rfl).congr (fun _ _ => rfl) (fun _ _ _ => rfl)
    fun i => ?_
  · rcases i with _ | _ | i <;> rfl
  · rcases i with _ | _ | i <;> simp [BudgetBlock.write, inRange_isSome]
  · rcases i with _ | _ | i
    case succ.succ => cases h
    all_goals
      obtain ⟨within, rfl⟩ := inRange_map.mp h
      rfl
  · rcases i with _ | _ | _ | i
    case succ.succ.succ => exact if_neg (t := some (0, 9999)) (show ¬ (1 ≤ i + 3 ∧ i + 3 ≤ 2) by omega)
    all_goals rfl

/-- The items of every block. -/
theorem BlockValue.items (b : BlockValue) (i v : Nat) :
    ((b.item i).isSome = true ↔ (b.block.itemRange i).isSome = true) ∧
      ((b.write i v).isSome = true ↔ ∃ r, b.block.itemRange i = some r ∧ r.1 ≤ v ∧ v ≤ r.2) ∧
      ∀ b', b.write i v = some b' → b'.block = b.block ∧ b'.item i = some v ∧ ∀ j, j ≠ i → b'.item j = b.item j := by
  cases b with
  | zones x => exact ZonesBlock.items.block .zones (fun _ _ => rfl) x i v (fun _ _ => rfl) rfl fun _ => rfl
  | fans x => exact FansBlock.items.block .fans (fun _ _ => rfl) x i v (fun _ _ => rfl) rfl fun _ => rfl
  | channels x => exact ChannelsBlock.items.block .channels (fun _ _ => rfl) x i v (fun _ _ => rfl) rfl fun _ => rfl
  | timers x => exact TimersBlock.items.block .timers (fun _ _ => rfl) x i v (fun _ _ => rfl) rfl fun _ => rfl
  | budget x => exact BudgetBlock.items.block .budget (fun _ _ => rfl) x i v (fun _ _ => rfl) rfl fun _ => rfl
  | windows x =>
    refine WindowsBlock.items.block .windows (fun _ _ => rfl) x i v (fun _ _ => rfl) ?_ fun _ => rfl
    rw [BlockValue.write]
    split
    · rfl
    · rw [Option.map_bind]
      refine congrArg (Option.bind _) (funext fun w => ?_)
      exact (Option.map_map ..).symm

end Sys2Proof.Machine

/-! The edit requests: the session, the commit and its checks. -/

namespace Sys2Proof.Machine

section
variable {s : State}

/-! ## Requests on the session -/

theorem State.setSession_self {x : Session} (h : s.sst.session = x) : s.setSession x = s := by
  rw [← h]
  rfl

/-- A taken frame that changes the settings store but not the values in force, and after which no block waits. -/
theorem exec_stored (r : Request) {t : State} (h : s.Addressed) {a : Answer} (e : requestHandler r s.hearB = (t.hearB, a))
    (waits : t.NothingWaits) (mode : t.mode = s.mode := by rfl) (address : t.bli.address = s.bli.address := by rfl)
    (restart : r ≠ .restart := by rintro ⟨⟩) : exec (r.command 0) s = .next (t.replied r.kind a) := by
  refine (exec_command r restart 0 s).trans (congrArg Host.Outcome.next ?_)
  rw [State.answer_eq h (by rw [e]; exact mode.trans h.normal) (by rw [e]; exact waits), e, State.replied, address]

/-- A request on a session, by the state of the session before and after. -/
theorem exec_session (r : Request) (h : s.Addressed) {x : Session} {a : Answer}
    (e : requestHandler r s.hearB = (s.hearB.setSession x, a)) (waits : ∀ v, x ≠ .committing v true := by rintro v ⟨⟩)
    (restart : r ≠ .restart := by rintro ⟨⟩) : exec (r.command 0) s = .next ((s.setSession x).replied r.kind a) :=
  exec_stored r (t := s.setSession x) h e waits rfl rfl restart

/-- A request on a session that leaves it as it is. -/
theorem exec_refused (r : Request) (h : s.Addressed) {x : Session} {a : Answer} (session : s.sst.session = x)
    (e : requestHandler r s.hearB = (s.hearB, a)) (restart : r ≠ .restart := by rintro ⟨⟩) :
    exec (r.command 0) s = .next ((s.setSession x).replied r.kind a) := by
  rw [State.setSession_self session]
  exact exec_replied r h e restart

/-! ## The handling of each request, by the session -/

theorem State.openEdit_none (h : s.sst.session = .none) (n : Byte) : s.openEdit n = match Block.ofNumber? n.toNat with
    | none => (s, .refused .range)
    | some k => if k.protected? && !s.pif.commissioningKey then (s, .refused .barred)
      else (s.setSession (.opened (s.sst.inForce.copy k) false), .done) := by
  unfold State.openEdit
  rw [h] <;> rfl

theorem State.openEdit_busy (h : s.sst.session ≠ .none) (n : Byte) : s.openEdit n = (s, .refused .busy) := by
  unfold State.openEdit
  cases session : s.sst.session with
  | none => exact absurd session h
  | opened _ _ => rfl
  | committing _ _ => rfl

theorem State.writeItem_opened {b : BlockValue} (h : s.sst.session = .opened b false) (i v : Word) : s.writeItem i v =
    match b.write i.toNat v.toNat with
    | some b' => (s.setSession (.opened b' false), .done)
    | none => (s.setSession (.opened b true), .refused .range) := by
  unfold State.writeItem
  rw [h] <;> rfl

theorem State.commitEdit_opened {b : BlockValue} (h : s.sst.session = .opened b false) : s.commitEdit =
    if !b.consistent then (s.setSession (.opened b true), .refused .range)
    else if b.block.protected? && !s.commitCondition then (s, .refused .state)
    else (s.startCommit b, .done) := by
  unfold State.commitEdit
  rw [h]

/-! ## The commit (R189, R190) -/

theorem State.commitCondition_false_iff : s.commitCondition = false ↔
    s.plant.fireSide = true ∨ ∃ f, (s.plant.fan f).state ∉ [FanState.off, .tripped, .locked] := by
  rw [← Bool.not_eq_true, State.commitCondition_iff, not_and_or, Plant.fireSide_iff]
  push Not
  rfl

theorem ChannelSetting.consistent_iff (x : ChannelSetting) :
    x.consistent = true ↔ x.start < x.alarm1 ∧ x.alarm1 < x.alarm2 ∧ x.hysteresis < x.start := by
  simp [ChannelSetting.consistent, and_assoc]

/-- Settles O38, by the three outcomes of COMMIT-EDIT on an open session. -/
theorem commitChecksThenStarts : Obligations.CommitChecksThenStarts := by
  refine ⟨fun s b h session => ?_, fun s => s.plant.fireSide_iff, fun b => by cases b <;> simp [Block.protected?],
    fun x => by simp [BlockValue.consistent, ZonesBlock.consistent],
    fun x => by simp [BlockValue.consistent, FansBlock.consistent],
    fun x => by simp [BlockValue.consistent, ChannelSetting.consistent_iff], fun b other => ?_⟩
  case refine_2 =>
    cases b with
    | zones x => simp [BlockValue.block] at other
    | fans x => simp [BlockValue.block] at other
    | channels x => simp [BlockValue.block] at other
    | timers x => rfl
    | budget x => rfl
    | windows x => rfl
  have handled := State.commitEdit_opened (s := s.hearB) session
  refine ⟨fun bad => ?_, fun good guarded unmet => ?_, fun good free => ?_⟩
  · refine exec_session .commitEdit h (handled.trans ?_)
    rw [bad]
    rfl
  · refine exec_replied .commitEdit h (handled.trans ?_)
    have no : s.commitCondition = false := State.commitCondition_false_iff.mpr unmet
    rw [good, guarded, show s.hearB.commitCondition = false from no]
    rfl
  · refine exec_stored .commitEdit (t := s.startCommit b) h (handled.trans ?_) (fun v => by rintro ⟨⟩)
    have may : (b.block.protected? && !s.hearB.commitCondition) = false := by
      rcases free with open_ | ⟨side, rest⟩
      · rw [open_, Bool.false_and]
      · have met : s.hearB.commitCondition = true := by
          by_contra unmet
          rcases State.commitCondition_false_iff.mp (Bool.eq_false_iff.mpr unmet) with fire | ⟨f, moves⟩
          · exact absurd (side.symm.trans fire) (by decide)
          · exact moves (rest f)
        rw [met, Bool.not_true, Bool.and_false]
    rw [good, may]
    rfl

end

/-! ## The edit requests (R188) -/

/-- An edit request is answered `a` and leaves the session at `x`. -/
def State.Says (s : State) (c : Instr) (k : Byte) (a : Answer) (x : Session) : Prop :=
  exec c s = .next ((s.setSession x).replied k a)

section
variable {s : State} (h : s.Addressed) (n : Byte) (i v : Word)
include h

theorem edits_none (session : s.sst.session = .none) :
    (∀ b, Block.ofNumber? n.toNat = some b → (b.protected? = true → s.pif.commissioningKey = true) →
      s.Says (.openEdit n) 32#8 .done (.opened (s.sst.inForce.copy b) false)) ∧
    (∀ b, Block.ofNumber? n.toNat = some b → b.protected? = true → s.pif.commissioningKey = false →
      s.Says (.openEdit n) 32#8 (.refused .barred) .none) ∧
    (Block.ofNumber? n.toNat = none → s.Says (.openEdit n) 32#8 (.refused .range) .none) ∧
    s.Says (.writeItem i v) 33#8 (.refused .state) .none ∧ s.Says .commitEdit 34#8 (.refused .state) .none ∧
    s.Says .abandonEdit 35#8 (.refused .state) .none := by
  have opens := State.openEdit_none (s := s.hearB) session n
  refine ⟨fun b named keyed => ?_, fun b named guarded key => ?_, fun unnamed => ?_, ?_, ?_, ?_⟩
  · refine exec_session (.openEdit n) h (opens.trans ?_)
    have free : (b.protected? && !s.pif.commissioningKey) = false := by
      cases guarded : b.protected? with
      | false => rfl
      | true => rw [keyed guarded]; rfl
    rw [named]
    exact if_neg (Bool.not_eq_true _ ▸ free)
  · refine exec_refused (.openEdit n) h session (opens.trans ?_)
    rw [named]
    exact if_pos (by rw [guarded, State.hearB_pif, key]; rfl)
  · refine exec_refused (.openEdit n) h session (opens.trans ?_)
    rw [unnamed]
  · refine exec_refused (.writeItem i v) h session ?_
    show s.hearB.writeItem i v = _
    unfold State.writeItem
    rw [show s.hearB.sst.session = .none from session]
  · refine exec_refused .commitEdit h session ?_
    show s.hearB.commitEdit = _
    unfold State.commitEdit
    rw [show s.hearB.sst.session = .none from session]
  · refine exec_refused .abandonEdit h session ?_
    show s.hearB.abandonEdit = _
    unfold State.abandonEdit
    rw [show s.hearB.sst.session = .none from session]

theorem edits_opened {b : BlockValue} {latch : Bool} (session : s.sst.session = .opened b latch) :
    s.Says (.openEdit n) 32#8 (.refused .busy) (.opened b latch) ∧ s.Says .abandonEdit 35#8 .done .none ∧
    (latch = true → s.Says (.writeItem i v) 33#8 (.refused .latched) (.opened b true) ∧
      s.Says .commitEdit 34#8 (.refused .latched) (.opened b true)) ∧
    (latch = false →
      (∀ b', b.write i.toNat v.toNat = some b' → s.Says (.writeItem i v) 33#8 .done (.opened b' false)) ∧
      (b.write i.toNat v.toNat = none → s.Says (.writeItem i v) 33#8 (.refused .range) (.opened b true))) := by
  refine ⟨?_, ?_, ?_, ?_⟩
  · exact exec_refused (.openEdit n) h session (State.openEdit_busy (s := s.hearB) (session.trans_ne (by simp)) n)
  · refine exec_session .abandonEdit h ?_
    show s.hearB.abandonEdit = _
    unfold State.abandonEdit
    rw [show s.hearB.sst.session = .opened b latch from session]
  · rintro rfl
    refine ⟨exec_refused (.writeItem i v) h session ?_, exec_refused .commitEdit h session ?_⟩
    · show s.hearB.writeItem i v = _
      unfold State.writeItem
      rw [show s.hearB.sst.session = .opened b true from session]
    · show s.hearB.commitEdit = _
      unfold State.commitEdit
      rw [show s.hearB.sst.session = .opened b true from session]
  · rintro rfl
    have writes := State.writeItem_opened (s := s.hearB) session i v
    refine ⟨fun b' wrote => exec_session (.writeItem i v) h (writes.trans (by rw [wrote])),
      fun refused => exec_session (.writeItem i v) h (writes.trans (by rw [refused]))⟩

theorem edits_committing {b : BlockValue} (session : s.sst.session = .committing b false) :
    s.Says (.openEdit n) 32#8 (.refused .busy) (.committing b false) ∧
    s.Says (.writeItem i v) 33#8 (.refused .busy) (.committing b false) ∧
    s.Says .commitEdit 34#8 (.refused .busy) (.committing b false) ∧
    s.Says .abandonEdit 35#8 (.refused .busy) (.committing b false) := by
  have held : s.hearB.sst.session = .committing b false := session
  refine ⟨exec_refused (.openEdit n) h session (State.openEdit_busy (s := s.hearB) (session.trans_ne (by simp)) n),
    exec_refused (.writeItem i v) h session ?_, exec_refused .commitEdit h session ?_,
    exec_refused .abandonEdit h session ?_⟩
  · show s.hearB.writeItem i v = _
    unfold State.writeItem
    rw [held]
  · show s.hearB.commitEdit = _
    unfold State.commitEdit
    rw [held]
  · show s.hearB.abandonEdit = _
    unfold State.abandonEdit
    rw [held]

end

theorem ChannelsBlock.item_channel (x : ChannelsBlock) (c : Channel) {j : Nat} (h : j < 8) :
    x.item (8 * (c.number - 1) + (j + 1)) = (x.channel.get c).item j := by
  obtain ⟨low, high⟩ := Channel.numbered.bounds c
  unfold ChannelsBlock.item
  rw [if_neg (show ¬ 8 * (c.number - 1) + (j + 1) = 0 by omega), if_pos (show 8 * (c.number - 1) + (j + 1) ≤ 128 by omega),
    show (8 * (c.number - 1) + (j + 1) - 1) / 8 + 1 = c.number by omega,
    show (8 * (c.number - 1) + (j + 1) - 1) % 8 = j by omega, Channel.ofNumber?_number, Option.bind_some]

theorem ChannelsBlock.item_zone (x : ChannelsBlock) (z : Zone) {j : Nat} (h : j < 3) :
    x.item (128 + 3 * (z.number - 1) + (j + 1)) = (x.zone.get z).item j := by
  obtain ⟨low, high⟩ := Zone.numbered.bounds z
  unfold ChannelsBlock.item
  rw [if_neg (show ¬ 128 + 3 * (z.number - 1) + (j + 1) = 0 by omega),
    if_neg (show ¬ 128 + 3 * (z.number - 1) + (j + 1) ≤ 128 by omega),
    show (128 + 3 * (z.number - 1) + (j + 1) - 129) / 3 + 1 = z.number by omega,
    show (128 + 3 * (z.number - 1) + (j + 1) - 129) % 3 = j by omega, Zone.ofNumber?_number, Option.bind_some]

/-- Settles O37: the requests by the session they find, the items by the records of each block. -/
theorem editRequestsFollowTheSession : Obligations.EditRequestsFollowTheSession := by
  refine ⟨fun s n i v h => ⟨edits_none h n i v, fun b latch => edits_opened h n i v, fun b => edits_committing h n i v⟩,
    BlockValue.items, fun x z => ?_, fun x f g => ?_, fun x c z => ?_, fun x => rfl, fun x => rfl, fun x w => ?_⟩
  · cases z <;> exact ⟨rfl, rfl, rfl, rfl⟩
  · have group : (BlockValue.fans x).item f.number = some (groupCode (x.group.get f)) := by cases f <;> rfl
    have code : groupCode (x.group.get f) = ((x.group.get f).map Group.number).getD 0 := by
      cases x.group.get f <;> rfl
    exact ⟨group.trans (congrArg some code), by cases f <;> rfl, by cases g <;> rfl⟩
  · have channel {j : Nat} (within : j < 8) := x.item_channel c within
    have zone {j : Nat} (within : j < 3) := x.item_zone z within
    have code : zoneCode (x.channel.get c).zone = ((x.channel.get c).zone.map Zone.number).getD 0 := by
      cases (x.channel.get c).zone <;> rfl
    have kind : GasKind.code (x.channel.get c).kind = match (x.channel.get c).kind with
        | .co => 1 | .no2 => 2 | .flammable => 3 := by cases (x.channel.get c).kind <;> rfl
    refine ⟨(channel (j := 0) (by decide)).trans (congrArg some code),
      (channel (j := 1) (by decide)).trans (congrArg some kind), channel (j := 2) (by decide), channel (j := 3) (by decide),
      channel (j := 4) (by decide), channel (j := 5) (by decide), channel (j := 6) (by decide), channel (j := 7) (by decide),
      zone (j := 0) (by decide), zone (j := 1) (by decide), zone (j := 2) (by decide)⟩
  · cases w <;> rfl

end Sys2Proof.Machine

/-! The beginning of normal operation: the first pass and the first claims, in a supply hold. -/

namespace Sys2Proof.Machine

/-! ## The events of damper commands (R108, R109) -/

theorem foldl_changeDamper_events (f : Zone → Damper → Damper) (c : Zone → Bool) {l : List Zone} (nodup : l.Nodup)
    (p : Plant) (calm : ∀ z ∈ l, c z = false → (f z (p.dampers.get z)).state = .fault → (p.dampers.get z).state = .fault) :
    (l.foldl (fun q z => if c z then q else changeDamper z (f z) q) p).events = p.events := by
  induction l generalizing p with
  | nil => rfl
  | cons a l ih =>
    obtain ⟨fresh, nodup⟩ := List.nodup_cons.mp nodup
    rw [List.foldl_cons]
    cases still : c a with
    | true => exact ih nodup p fun z mem => calm z (List.mem_cons_of_mem _ mem)
    | false =>
      refine (ih nodup (changeDamper a (f a) p) fun z mem => ?_).trans ?_
      · rw [changeDamper_damper, if_neg (by rintro rfl; exact fresh mem)]
        exact calm z (List.mem_cons_of_mem _ mem)
      · have quiet : ((f a (p.dampers.get a)).state == .fault && (p.dampers.get a).state != .fault) = false := by
          by_cases fault : (f a (p.dampers.get a)).state = .fault
          · simp [calm a List.mem_cons_self still fault]
          · simp [fault]
        show (Plant.raiseIf _ _ _).events = _
        rw [quiet]
        rfl

theorem commanded_events {cfg : Settings} {p : Plant}
    (calm : ∀ z, (p.zones.get z).result.directive ≠ (resultOf (p.zones.get z).claims).directive →
      ((p.dampers.get z).obey cfg.timers.travel ((resultOf (p.zones.get z).claims).directive == .opened)).state = .fault →
      (p.dampers.get z).state = .fault)
    {k : EventKind} (other : k ≠ .zoneChange) : (commanded cfg p).events.has k = p.events.has k := by
  have same := foldl_changeDamper_events
    (fun z => Damper.obey cfg.timers.travel ((resultOf (p.zones.get z).claims).directive == .opened))
    (fun z => decide ((p.zones.get z).result.directive = (resultOf (p.zones.get z).claims).directive))
    Zone.all_nodup ((recomputeResults p).raiseIf
      (Zone.all.any fun z => (p.zones.get z).result.notedChange ((recomputeResults p).zones.get z).result) .zoneChange)
    (fun z _ changed => by rw [Plant.raiseIf_dampers]; exact calm z (of_decide_eq_false changed))
  simp only [decide_eq_true_eq] at same
  unfold commanded commandDampers
  simp only [recomputeResults, Plant.raiseIf_zones, PerZone.get_build] at same ⊢
  rw [same]
  simp [other]

/-! ## A pass in a supply hold -/

theorem rotate_events (before now : PerGroup GroupRec) (p : Plant) : (rotate before now p).events = p.events := by
  rw [rotate_only]

/-- A pass in a supply hold raises no event but ZONE-CHANGE. -/
theorem runPass_held_events {cfg : Settings} {p : Plant} (ok : p.QueueOk) (held : p.supplyHold = true)
    (hold : p.fsq.hold = true) (idle : ∀ f, (p.fan f).state.inService = false) {k : EventKind} (other : k ≠ .zoneChange) :
    (runPass cfg p).events.has k = p.events.has k := by
  have covered := Plant.Covered.of_hold (cfg := cfg) ok held idle
  obtain ⟨m, passed, handed⟩ := fsqPass_covered covered.queue covered.granted
  have empty := passed.hold_empty covered (passed.hold.trans hold)
  have none : m.wanted cfg = none := by rw [Plant.wanted, empty]
  have rests := passed.queueTest_rests covered (.inl none)
  rw [runPass_covered handed (passed.queueTest covered).1, rests, rotate_events, refreshStatus_events]
  have unchanged : (m.stage (m.wanted cfg)).events = p.events := by
    refine passed.events.trans ?_
    rw [recordPass, allocate_held held]
    rfl
  rw [unchanged]
  simp [other]

/-! ## The plant while normal operation begins -/

/-- A plant in which the fans rest in a supply hold and the dampers are commanded closed. -/
structure Plant.Resting (cfg : Settings) (p : Plant) : Prop where
  held : p.supplyHold = true
  hold : p.fsq.hold = true
  fan : ∀ f, (p.fan f).state.inService = false ∧ (p.fan f).state ≠ .queued ∧
    (p.fan f).granted cfg.timers.coast ⟨0, false⟩ = p.fan f ∧ (p.fan f).overridden = p.fan f
  closed : ∀ z, (p.dampers.get z).commandOpen = false
  calm : ∀ z b, ((p.dampers.get z).obey cfg.timers.travel b).state = .fault → (p.dampers.get z).state = .fault

/-- The damper of a zone after claims have opened it or have not. -/
def Damper.directed (travel : Nat) (x : Directive) (d : Damper) : Damper := if x = .opened then d.obey travel true else d

/-- What claims make of a resting plant. -/
structure Plant.Begun (cfg : Settings) (p q : Plant) : Prop where
  spm : q.spm = p.spm
  hold : q.fsq.hold = p.fsq.hold
  queue : q.fsq.queue = []
  staged : q.fsq.staged = none
  fan : ∀ f, q.fan f = p.fan f
  budget : q.gal.budget = p.gal.budget
  fireOrder : q.fireOrder = p.fireOrder
  events : ∀ k, k ≠ .zoneChange → q.events.has k = p.events.has k
  result : ∀ z, (q.zones.get z).result = resultOf (q.zones.get z).claims
  damper : ∀ z, q.dampers.get z =
    (p.dampers.get z).directed cfg.timers.travel (q.zones.get z).result.directive

section
variable {cfg : Settings} {p q : Plant}

theorem Plant.Begun.queueOk (h : p.Begun cfg q) (rest : p.Resting cfg) : q.QueueOk :=
  .of_empty h.queue h.staged fun f => by rw [h.fan]; exact (rest.fan f).2.1

theorem Plant.Begun.supplyHold (h : p.Begun cfg q) (rest : p.Resting cfg) : q.supplyHold = true := by
  rw [← rest.held, Plant.supplyHold, Plant.supplyHold, h.spm]

theorem Plant.Begun.idle (h : p.Begun cfg q) (rest : p.Resting cfg) (f : Fan) : (q.fan f).state.inService = false := by
  rw [h.fan]
  exact (rest.fan f).1

/-- A pass leaves the plant as it is, but for the records of the groups and the statuses. -/
theorem Plant.Begun.runPass (h : p.Begun cfg q) (rest : p.Resting cfg) : p.Begun cfg (runPass cfg q) := by
  have ok := h.queueOk rest
  have held := h.supplyHold rest
  have hold := h.hold.trans rest.hold
  have idle := h.idle rest
  obtain ⟨queue, staged, -, fan⟩ := runPass_held (cfg := cfg) ok held hold idle
  have same := (runPass_chain cfg q).same
  refine ⟨same.spm.trans h.spm, same.hold.trans h.hold, queue, staged, fun f => ?_, same.budget.trans h.budget,
    same.fireOrder.trans h.fireOrder, fun k other => ?_, fun z => ?_, fun z => ?_⟩
  · rw [fan, h.fan, (rest.fan f).2.2.1, (rest.fan f).2.2.2]
  · rw [runPass_held_events ok held hold idle other, h.events k other]
  · rw [same.result, same.claims, h.result]
  · rw [same.dampers, same.result, h.damper]

theorem Plant.Begun.refreshStatus (h : p.Begun cfg q) : p.Begun cfg (refreshStatus cfg q) := by
  have same := (refreshStatus_chain cfg q).same
  have fsq := refreshStatus_fsq cfg q
  refine ⟨same.spm.trans h.spm, same.hold.trans h.hold, by rw [fsq, h.queue], by rw [fsq, h.staged], fun f => ?_,
    same.budget.trans h.budget, same.fireOrder.trans h.fireOrder, fun k other => ?_, fun z => ?_, fun z => ?_⟩
  · rw [Plant.fan, fsq]
    exact h.fan f
  · rw [refreshStatus_events, ← h.events k other]
    simp [other]
  · rw [same.result, same.claims, h.result]
  · rw [same.dampers, same.result, h.damper]

theorem Damper.directed_follow {travel : Nat} {d : Damper} (closed : d.commandOpen = false) {old new : ZoneResult}
    (stays : old.directive = .opened → new.directive = .opened) :
    (d.directed travel old.directive).follow travel old new = d.directed travel new.directive := by
  unfold Damper.follow
  split
  · rename_i same
    rw [same]
  · rename_i changed
    have was : old.directive ≠ .opened := fun opened => changed (opened.trans (stays opened).symm)
    rw [Damper.directed, if_neg was, Damper.directed]
    split
    · rename_i opened
      rw [opened]
      rfl
    · rename_i other
      rw [beq_false_of_ne other, Damper.obey, if_pos closed]

/-- A placement that leaves an opened zone open keeps the plant as claims make it. -/
theorem Plant.Begun.place (h : p.Begun cfg q) (rest : p.Resting cfg) {z : Zone} {c : Claim}
    (stays : (resultOf (q.zones.get z).claims).directive = .opened →
      (resultOf (placeIn c (q.zones.get z).claims)).directive = .opened) : p.Begun cfg (place cfg z c q) := by
  generalize changed : q.setClaims z (placeIn c (q.zones.get z).claims) = q'
  have zone (y : Zone) : (q'.zones.get y).result = (q.zones.get y).result ∧
      (y ≠ z → (q'.zones.get y).claims = (q.zones.get y).claims) ∧
      (y = z → (q'.zones.get y).claims = placeIn c (q.zones.get y).claims) := by
    rw [← changed, Plant.setClaims]
    dsimp only
    rw [PerZone.get_set]
    by_cases same : y = z
    · subst same
      simp
    · simp [same]
  have damper (y : Zone) : q'.dampers.get y = q.dampers.get y := by rw [← changed]; rfl
  have open_ (y : Zone) (was : (q.zones.get y).result.directive = .opened) :
      (resultOf (q'.zones.get y).claims).directive = .opened := by
    rw [h.result] at was
    by_cases same : y = z
    · rw [(zone y).2.2 same]
      subst same
      exact stays was
    · rw [(zone y).2.1 same]
      exact was
  obtain ⟨same, follows⟩ := commanded_spec cfg q'
  have fsq : (commanded cfg q').fsq = q.fsq := same.fsq.trans (by rw [← changed]; rfl)
  have events {k : EventKind} (other : k ≠ .zoneChange) : (commanded cfg q').events.has k = q.events.has k := by
    refine (commanded_events (fun y moved fault => ?_) other).trans (by rw [← changed]; rfl)
    have was : (q.zones.get y).result.directive ≠ .opened := fun opened =>
      moved ((zone y).1 ▸ opened.trans (open_ y opened).symm)
    have kept : q'.dampers.get y = p.dampers.get y := by
      rw [damper, h.damper, Damper.directed, if_neg was]
    rw [kept] at fault ⊢
    exact rest.calm y _ fault
  have begun : p.Begun cfg (commanded cfg q') := by
    refine ⟨same.spm.trans ?_, by rw [fsq, h.hold], by rw [fsq, h.queue], by rw [fsq, h.staged], fun f => ?_, ?_, ?_,
      fun k other => (events other).trans (h.events k other), fun y => ?_, fun y => ?_⟩
    · rw [← h.spm, ← changed]
      rfl
    · rw [Plant.fan, fsq]
      exact h.fan f
    · rw [same.gal, ← h.budget, ← changed]
      rfl
    · rw [same.fireOrder, ← h.fireOrder, ← changed]
      rfl
    · rw [same.zones]
      simp [recomputeResults]
    · rw [follows, damper, h.damper, (zone y).1, Damper.directed_follow (rest.closed y) (open_ y), same.zones]
      simp [recomputeResults]
  have refreshed := begun.refreshStatus
  rw [Machine.place, changed]
  unfold handOn
  dsimp only
  split
  · exact refreshed.runPass rest
  · exact refreshed

end

end Sys2Proof.Machine

/-! LOADING_COMPLETE: normal operation begins from the lines. -/

namespace Sys2Proof.Machine

/-! ## The first claims -/

/-- An EXHAUST claim that enters an open zone's list leaves the zone open. -/
theorem resultOf_placeIn_opened {c : Claim} {l : List Claim} {d : Nat} (fresh : claimOf c.source l = none)
    (exhaust : c.kind = .exhaust d) (opened : (resultOf l).directive = .opened) :
    (resultOf (placeIn c l)).directive = .opened := by
  rw [placeIn, withoutSource_eq_self fresh]
  cases l with
  | nil => cases opened
  | cons e es =>
    unfold enterClaim
    split
    · rw [resultOf, exhaust]
    · cases kind : e.kind with
      | shut =>
        rw [resultOf, kind] at opened
        cases opened
      | exhaust n => rw [resultOf, kind]

/-- A fold over things that are fresh until their own turn. -/
theorem foldl_fresh {σ ι : Type} {step : σ → ι → σ} {good : σ → Prop} {fresh : σ → ι → Prop}
    (each : ∀ s i, good s → fresh s i → good (step s i)) (apart : ∀ s i j, j ≠ i → fresh s j → fresh (step s i) j)
    {l : List ι} (nodup : l.Nodup) {s : σ} (start : good s) (all : ∀ i ∈ l, fresh s i) : good (l.foldl step s) := by
  induction l generalizing s with
  | nil => exact start
  | cons i is ih =>
    obtain ⟨new, rest⟩ := List.nodup_cons.mp nodup
    refine ih rest (each s i start (all i List.mem_cons_self)) fun j mem => ?_
    exact apart s i j (by rintro rfl; exact new mem) (all j (List.mem_cons_of_mem _ mem))

/-- The state's settings are `cfg`, and its plant is what claims made of the resting plant `p`. -/
def State.Began (cfg : Settings) (p : Plant) (s : State) : Prop := s.cfg = cfg ∧ p.Begun cfg s.plant

section
variable {cfg : Settings} {p : Plant} {s : State}

theorem State.Began.place (h : s.Began cfg p) (rest : p.Resting cfg) {z : Zone} {c : Claim}
    (stays : (resultOf (s.claims z)).directive = .opened → (resultOf (placeIn c (s.claims z))).directive = .opened) :
    (s.place z c).Began cfg p := by
  refine ⟨h.1, ?_⟩
  show p.Begun cfg (Machine.place s.cfg z c s.plant)
  rw [h.1]
  exact h.2.place rest stays

theorem State.Began.runPass (h : s.Began cfg p) (rest : p.Resting cfg) : (s.onPlant (Machine.runPass cfg)).Began cfg p := by
  refine ⟨h.1, ?_⟩
  rw [State.onPlant_plant]
  exact h.2.runPass rest

theorem State.Began.placePanels (h : s.Began cfg p) (rest : p.Resting cfg) (none : ∀ z, s.claims z = []) :
    (Zone.all.foldl State.placePanel s).Began cfg p := by
  refine foldl_fresh (fresh := fun s z => s.claims z = []) (fun s z began empty => ?_) (fun s z y other empty => ?_)
    Zone.all_nodup h fun z _ => none z
  · cases asked : claimAsked (s.pif.position.get z) with
    | none => rwa [State.placePanel_none asked]
    | some k =>
      rw [State.placePanel_some asked]
      refine State.Began.place (s := s.holdPanel z (some k)) began rest fun opened => ?_
      rw [show (s.holdPanel z (some k)).claims z = [] from empty] at opened
      cases opened
  · have view := s.placePanel_view z y
    rw [if_neg other] at view
    exact (congrArg Prod.fst view).trans empty

theorem State.Began.placeContact (h : s.Began cfg p) (rest : p.Resting cfg)
    (none : ∀ z, claimOf .fireContact (s.claims z) = none) : s.placeContact.Began cfg p := by
  refine foldl_fresh (fresh := fun s z => claimOf .fireContact (s.claims z) = .none) (fun s z began fresh => ?_)
    (fun s z y other fresh => ?_) (Zone.all_nodup.filter _) h fun z _ => none z
  · exact began.place rest (resultOf_placeIn_opened fresh rfl)
  · rw [s.place_claims, if_neg other]
    exact fresh

theorem State.alignSchedule_claims (s : State) {z y : Zone} (other : y ≠ z) : (s.alignSchedule z).claims y = s.claims y := by
  unfold State.alignSchedule
  dsimp only
  split
  · rfl
  · split
    · exact (State.place_claims ..).trans (if_neg other)
    · exact (State.remove_claims ..).trans (if_neg other)

theorem State.Began.evaluateWindows (h : s.Began cfg p) (rest : p.Resting cfg)
    (none : ∀ z, s.dck.held.get z = none ∧ claimOf .schedule (s.claims z) = none) : s.evaluateWindows.Began cfg p := by
  refine foldl_fresh (fresh := fun s z => s.dck.held.get z = .none ∧ claimOf .schedule (s.claims z) = .none)
    (fun s z began fresh => ?_) (fun s z y other fresh => ?_) Zone.all_nodup h fun z _ => none z
  · unfold State.alignSchedule
    rw [fresh.1]
    cases wanted : wantedSchedule s.cfg.windows s.dck z with
    | none => exact began
    | some d =>
      exact State.Began.place (s := s.holdSchedule z (some d)) began rest
        (resultOf_placeIn_opened (c := scheduleClaim d) fresh.2 rfl)
  · rw [s.alignSchedule_held, if_neg other, s.alignSchedule_claims other]
    exact fresh

end

/-! ## The resting plant -/

/-- A damper that starts with one reading of an end, or with none, is no fault under any command. -/
theorem Damper.start_calm (travel : Nat) (a b toOpen : Bool)
    (fault : ((Damper.start travel a b).obey travel toOpen).state = .fault) : (Damper.start travel a b).state = .fault := by
  by_cases both : a = true ∧ b = true
  · obtain ⟨rfl, rfl⟩ := both
    rfl
  · cases a <;> cases b <;> cases toOpen <;>
      simp [Damper.start, Damper.reading, Damper.obey, Damper.blank, Damper.depart, Damper.testEnd, Damper.commandedEnd,
        Damper.home] at both fault

theorem Plant.start_resting (cfg : Settings) (fireChange defaulted : Bool) (x : Lines) :
    (Plant.start cfg fireChange defaulted x).Resting cfg where
  held := (Plant.start_holdOk cfg fireChange defaulted x).2.1.symm.trans (Plant.start_hold ..)
  hold := Plant.start_hold ..
  fan f := by
    rw [Plant.start_fan]
    refine ⟨FanRec.start_idle .., ?_, ?_, rfl⟩
    · rcases FanRec.start_state cfg.timers.coast (x.running.get f) (x.airflow.get f) (x.driveFault.get f) with h | h <;>
        rw [h] <;> decide
    · cases x.running.get f <;> rfl
  closed z := by rw [Plant.start_damper, Damper.start_commandOpen]
  calm z b := by
    rw [Plant.start_damper]
    exact Damper.start_calm _ _ _ _

theorem Plant.start_begun (cfg : Settings) (fireChange defaulted : Bool) (x : Lines) :
    (Plant.start cfg fireChange defaulted x).Begun cfg (Plant.start cfg fireChange defaulted x) where
  spm := rfl
  hold := rfl
  queue := Plant.start_queue ..
  staged := Plant.start_staged ..
  fan _ := rfl
  budget := rfl
  fireOrder := rfl
  events _ _ := rfl
  result z := by rw [Plant.start_zone]; rfl
  damper z := by rw [Plant.start_zone]; rfl

/-! ## The beginning (R187) -/

/-- The state as normal operation begins, after the first pass and the first claims of the panel. -/
def State.panelBegun (s : State) (x : Lines) : State :=
  if x.panelKey then Zone.all.foldl State.placePanel ((s.begin x).onPlant (runPass s.cfg))
  else (s.begin x).onPlant (runPass s.cfg)

/-- The state after the first claims of the fire contact. -/
def State.contactBegun (s : State) (x : Lines) : State :=
  if (s.panelBegun x).fallback then (s.panelBegun x).placeContact else s.panelBegun x

theorem State.beginOperation_eq (s : State) (x : Lines) : s.beginOperation x = (s.contactBegun x).evaluateWindows := rfl

section
variable (s : State) (x : Lines)

/-- The plant as normal operation begins. -/
def State.startPlant : Plant := Plant.start s.cfg s.plant.events.fireChange s.sst.defaulted.any x

theorem State.begin_began : (s.begin x).Began s.cfg (s.startPlant x) := ⟨rfl, Plant.start_begun ..⟩

theorem State.begin_claims (z : Zone) : (s.begin x).claims z = [] := by
  show ((Plant.start ..).zones.get z).claims = []
  rw [Plant.start_zone]
  rfl

theorem State.passed_began : ((s.begin x).onPlant (runPass s.cfg)).Began s.cfg (s.startPlant x) :=
  (s.begin_began x).runPass (Plant.start_resting ..)

theorem State.passed_claims (z : Zone) : ((s.begin x).onPlant (runPass s.cfg)).claims z = [] :=
  ((runPass_chain s.cfg (s.begin x).plant).same.claims z).trans (s.begin_claims x z)

theorem State.panelBegun_began : (s.panelBegun x).Began s.cfg (s.startPlant x) := by
  unfold State.panelBegun
  split
  · exact (s.passed_began x).placePanels (Plant.start_resting ..) (s.passed_claims x)
  · exact s.passed_began x

theorem State.panelBegun_handed : ((s.begin x).onPlant (runPass s.cfg)).Handed .panel (s.panelBegun x) := by
  unfold State.panelBegun
  split
  · exact .foldl State.placePanel_handed Zone.all _
  · exact .refl _ _

theorem State.panelBegun_claims {src : Source} (other : src ≠ .panel) (z : Zone) :
    claimOf src ((s.panelBegun x).claims z) = none := by
  refine ((s.panelBegun_handed x).claims.claimOf other z).trans ?_
  rw [show ((((s.begin x).onPlant (runPass s.cfg)).plant.zones.get z).claims) = [] from s.passed_claims x z]
  rfl

theorem State.panelBegun_fallback : (s.panelBegun x).fallback = s.fif.contact := by
  have fif : (s.panelBegun x).fif = (s.begin x).fif := by rw [(s.panelBegun_handed x).only]; rfl
  rw [State.fallback, fif]
  exact Bool.and_true _

theorem State.contactBegun_handed : (s.panelBegun x).Handed .fireContact (s.contactBegun x) := by
  unfold State.contactBegun
  split
  · exact State.placeContact_handed _
  · exact .refl _ _

theorem State.contactBegun_began : (s.contactBegun x).Began s.cfg (s.startPlant x) := by
  unfold State.contactBegun
  split
  · exact (s.panelBegun_began x).placeContact (Plant.start_resting ..) (s.panelBegun_claims x (by decide))
  · exact s.panelBegun_began x

theorem State.beginOperation_began : (s.beginOperation x).Began s.cfg (s.startPlant x) := by
  rw [State.beginOperation_eq]
  refine (s.contactBegun_began x).evaluateWindows (Plant.start_resting ..) fun z => ⟨?_, ?_⟩
  · rw [(s.contactBegun_handed x).dck (by decide), (s.panelBegun_handed x).dck (by decide)]
    exact PerZone.get_build ..
  · exact ((s.contactBegun_handed x).claims.claimOf (by decide) z).trans (s.panelBegun_claims x (by decide) z)

/-- The first pass and the first claims touch the plant and the records of the panel and the clock alone. -/
theorem State.beginOperation_only : s.beginOperation x = { s.begin x with
    plant := (s.beginOperation x).plant
    pif := { (s.begin x).pif with held := (s.beginOperation x).pif.held }
    dck := { (s.begin x).dck with held := (s.beginOperation x).dck.held } } := by
  have panel := (s.panelBegun_handed x).panel
  have contact := (s.contactBegun_handed x).of_contact
  have windows := (s.contactBegun x).evaluateWindows_only
  rw [← State.beginOperation_eq] at windows
  generalize s.beginOperation x = u at windows ⊢
  generalize s.contactBegun x = v at contact windows
  generalize s.panelBegun x = w at panel contact
  rw [windows, contact, panel]
  rfl

theorem State.beginOperation_handed (src : Source) (panel : src ≠ .panel) (contact : src ≠ .fireContact)
    (schedule : src ≠ .schedule) (z : Zone) : claimOf src ((s.beginOperation x).claims z) = none :=
  ((s.contactBegun x).evaluateWindows_handed.claims.claimOf schedule z).trans
    (((s.contactBegun_handed x).claims.claimOf contact z).trans (s.panelBegun_claims x panel z))

theorem State.askedView_panel {s : State} {z : Zone} (empty : s.claims z = []) : claimOf .panel (s.askedView z).1 =
    (claimAsked (s.pif.position.get z)).map panelClaim := by
  unfold State.askedView
  cases claimAsked (s.pif.position.get z) with
  | none => exact congrArg (claimOf .panel) empty
  | some k => exact claimOf_placeIn_self (panelClaim k) _

theorem State.beginOperation_panel (z : Zone) : claimOf .panel ((s.beginOperation x).claims z) =
    if x.panelKey then (claimAsked ((s.begin x).pif.position.get z)).map panelClaim else none := by
  refine ((s.contactBegun x).evaluateWindows_handed.claims.claimOf (by decide) z).trans
    (((s.contactBegun_handed x).claims.claimOf (by decide) z).trans ?_)
  show claimOf .panel ((s.panelBegun x).claims z) = _
  have empty := s.passed_claims x z
  unfold State.panelBegun
  cases x.panelKey with
  | false =>
    rw [if_neg (by decide), if_neg (by decide), empty]
    rfl
  | true =>
    rw [if_pos rfl, if_pos rfl]
    have view := congrArg Prod.fst (State.placePanels_view ((s.begin x).onPlant (runPass s.cfg)) z)
    exact (congrArg (claimOf .panel) view).trans (State.askedView_panel empty)

theorem State.beginOperation_contact (z : Zone) : claimOf .fireContact ((s.beginOperation x).claims z) =
    if s.fif.contact && maskHas s.cfg.zones.contactExhaust z then some fireContactClaim else none := by
  refine ((s.contactBegun x).evaluateWindows_handed.claims.claimOf (by decide) z).trans ?_
  show claimOf .fireContact ((s.contactBegun x).claims z) = _
  unfold State.contactBegun
  rw [s.panelBegun_fallback]
  have before := s.panelBegun_claims x (src := .fireContact) (by decide) z
  cases s.fif.contact with
  | false => rw [if_neg (by decide), before]; rfl
  | true =>
    rw [if_pos rfl, State.placeContact_claims, (s.panelBegun_began x).1, Bool.true_and]
    split
    · exact claimOf_placeIn_self fireContactClaim _
    · exact before

theorem State.beginOperation_schedule (z : Zone) : claimOf .schedule ((s.beginOperation x).claims z) =
    (wantedSchedule s.cfg.windows s.dck z).map scheduleClaim := by
  have agree := (s.beginOperation_handles x).sources (s.begin_sound x).sources
  obtain ⟨-, -, -, schedule⟩ := agree z
  refine schedule.trans (congrArg (Option.map scheduleClaim) ?_)
  rw [State.beginOperation_eq, State.evaluateWindows_held, (s.contactBegun_began x).1,
    (s.contactBegun_handed x).dck (by decide), (s.panelBegun_handed x).dck (by decide)]
  exact wantedSchedule_congr rfl z

end

/-! ## What the lines say -/

theorem Plant.start_has (cfg : Settings) (fireChange defaulted : Bool) (x : Lines) (k : EventKind) : (Plant.start cfg fireChange defaulted x).events.has k =
    ((Zone.all.any fun z => x.openSwitch.get z && x.closedSwitch.get z) && decide (k = .damperFault) ||
      (defaulted && decide (k = .settingsDefaulted) || (fireChange && decide (k = .fireChange) || decide (k = .powerUp)))) := by
  have fault (z : Zone) : ((Damper.start cfg.timers.travel (x.openSwitch.get z) (x.closedSwitch.get z)).state == .fault) =
      (x.openSwitch.get z && x.closedSwitch.get z) := by
    cases x.openSwitch.get z <;> cases x.closedSwitch.get z <;> rfl
  have empty : Plant.blank.events.has k = false := by cases k <;> rfl
  simp [Plant.start, fault, empty, Events.has_add]

theorem Pif.start_position (x : Lines) (z : Zone) : (Pif.start x).position.get z =
    if x.exhaustLine.get z && !x.offLine.get z then .exhaust
    else if x.offLine.get z && !x.exhaustLine.get z then .off else .auto := by
  rw [Pif.start, PerZone.get_build]
  dsimp only
  cases x.exhaustLine.get z <;> cases x.offLine.get z <;> rfl

theorem Pif.start_switchFault (x : Lines) (z : Zone) :
    (Pif.start x).switchFault.get z = (x.exhaustLine.get z && x.offLine.get z) := by
  rw [Pif.start, PerZone.get_build]
  dsimp only
  cases x.exhaustLine.get z <;> cases x.offLine.get z <;> rfl

theorem Damper.start_eq (travel : Nat) (opened closed : Bool) : Damper.start travel opened closed = {
    state := if opened && closed then .fault else if closed then .closed else .closing
    commandOpen := false
    timer := if closed then none else some travel
    cause := if opened && closed then .disagree else .none
    openSwitch := opened, closedSwitch := closed } := by
  cases opened <;> cases closed <;> rfl

/-- Settles O22: the first claims find the fans at rest in a supply hold, so that they move the claim table, the dampers
and the statuses alone. -/
theorem loadingEndsInNormalOperation : Obligations.LoadingEndsInNormalOperation := by
  intro x s loading plain
  obtain ⟨cfg, begun⟩ := s.beginOperation_began x
  have only := s.beginOperation_only x
  have handles := s.beginOperation_handles x
  have panel := s.beginOperation_panel x
  have contact := s.beginOperation_contact x
  have schedule := s.beginOperation_schedule x
  have others := s.beginOperation_handed x
  have ran : exec (.loadingComplete x) s = .next (s.beginOperation x).settle :=
    congrArg Host.Outcome.next (if_pos loading)
  have has (k : EventKind) := Plant.start_has s.cfg s.plant.events.fireChange s.sst.defaulted.any x k
  rw [State.settle_eq handles.mode (fun v => by rw [only]; exact plain v)] at ran
  generalize s.beginOperation x = u at *
  refine ⟨u.refreshPins, ran, handles.mode, ?_, fun f => ?_, fun z => ⟨?_, ?_⟩, fun z => ?_, ?_, ?_, ?_, fun z => ?_, contact,
    schedule, fun z src notPanel notContact notSchedule => others src notPanel notContact notSchedule z,
    begun.fireOrder.trans (Plant.start_fireOrder ..), ?_, begun.queue, begun.staged, ?_, ?_⟩
  · refine begun.spm.trans ((Plant.start_spm ..).trans ?_)
    unfold Spm.start
    cases x.mainsHealthy <;> cases x.generatorOnline <;> rfl
  · refine (begun.fan f).trans ((Plant.start_fan ..).trans ?_)
    rfl
  · have position : u.pif.position = (Pif.start x).position := by rw [only]; rfl
    exact (congrArg (PerZone.get · z) position).trans (Pif.start_position x z)
  · have fault : u.pif.switchFault = (Pif.start x).switchFault := by rw [only]; rfl
    exact (congrArg (PerZone.get · z) fault).trans (Pif.start_switchFault x z)
  · intro opened closed began
    refine (begun.damper z).trans ?_
    rw [State.startPlant, Plant.start_damper, Damper.start_eq]
    rfl
  · have fault := (begun.events .damperFault (by decide)).trans (has .damperFault)
    refine (Bool.eq_iff_iff.mp fault).trans ?_
    simp
  · have defaulted := (begun.events .settingsDefaulted (by decide)).trans (has .settingsDefaulted)
    refine (Bool.eq_iff_iff.mp defaulted).trans ?_
    simp [PerBlock.any_iff]
  · exact ((begun.events .fireChange (by decide)).trans (has .fireChange)).trans (by simp)
  · have position : u.pif.position = (s.begin x).pif.position := by rw [only]
    have claims := panel z
    rw [← position] at claims
    exact claims
  · rw [State.refreshPins_plant, begun.budget]
    exact congrArg Gal.budget (Plant.start_gal ..)
  · exact ((begun.events .powerUp (by decide)).trans (has .powerUp)).trans (by simp)
  · have position : u.pif.position = (s.begin x).pif.position := by rw [only]
    have fault : u.pif.switchFault = (s.begin x).pif.switchFault := by rw [only]
    have own : u.refreshPins = { u with pins := u.refreshPins.pins } := rfl
    have view : u.refreshPins.plant = u.plant ∧ u.refreshPins.pif = u.pif ∧ u.refreshPins.dck = u.dck := ⟨rfl, rfl, rfl⟩
    rw [view.1, view.2.1, view.2.2, position, fault]
    refine own.trans ?_
    generalize u.refreshPins.pins = pins
    conv_lhs => rw [only]
    rfl

end Sys2Proof.Machine

/-! A TIMERS block that comes into force over a start queue that holds a fan already in STARTING (R144, R152, R159): the
expiry of its timer trips the fan, and the queue test that follows launches it again. No step leads to such a queue
(StartQueueHoldsTheQueuedFans), but WrittenBlocksComeIntoForce speaks of every state of normal operation. -/

namespace Sys2Proof.Machine

/-- A TIMERS block with a run time of 5 seconds, where the factory's is 10. -/
def shortRunTime : TimersBlock := { factory.timers with tRun := 5 }

/-- F1 in STARTING with one second of its run time left, and with an entry in the start queue. -/
def startingWhileQueued : Fsq :=
  { Fsq.blank with
    hold := false
    fans := Fsq.blank.fans.set .f1 { FanRec.blank with state := .starting, run := true, timer := some 1 }
    queue := [{ fan := .f1, fire := false, arrival := 0 }]
    nextArrival := 1 }

/-- Normal operation with F1 as in `startingWhileQueued`, and the write of `shortRunTime` about to end. -/
def writingShortRunTime : State :=
  { State.reset with
    mode := .normal
    plant := { Plant.blank with fsq := startingWhileQueued }
    sst := { State.reset.sst with session := .committing (.timers shortRunTime) false } }

/-- The state of a fan after a command, if the command goes on. -/
def fanStateAfter (c : Instr) (s : State) (f : Fan) : Option FanState :=
  match exec c s with
  | .next t => some (t.plant.fan f).state
  | _ => none

theorem fanStateAfter_next {c : Instr} {s t : State} (h : exec c s = .next t) (f : Fan) :
    fanStateAfter c s f = some (t.plant.fan f).state := by rw [fanStateAfter, h]

/-- The queue test of the trip's own pass finds the entry that F1 still has, and launches it. -/
theorem writingShortRunTime_relaunches :
    fanStateAfter .settingsWriteComplete writingShortRunTime .f1 = some .starting := by decide +kernel

theorem writingShortRunTime_timer (f : Fan) (other : f ≠ .f1) : (writingShortRunTime.plant.fan f).timer = none := by
  cases f with
  | f1 => exact absurd rfl other
  | _ => rfl

/-- Refutes O39: its clause on a single fan that runs out under a TIMERS block says nothing of the start queue. -/
theorem not_writtenBlocksComeIntoForce : ¬ Obligations.WrittenBlocksComeIntoForce := by
  intro h
  obtain ⟨-, -, -, -, -, -, timers, -⟩ := h
  obtain ⟨-, t, ran, -, -, -, expires, -⟩ := timers writingShortRunTime shortRunTime rfl rfl
  have due : ¬ ∀ left, (writingShortRunTime.plant.fan .f1).timer = some left → 10 < 5 + left := fun runs =>
    absurd (runs 1 rfl) (by decide)
  obtain ⟨trips, -⟩ := expires .f1 due (fun g other left e => by cases (writingShortRunTime_timer g other).symm.trans e)
    (fun z left e => by cases z <;> cases e) nofun nofun nofun nofun
  obtain ⟨tripped, -⟩ := trips (.inl rfl) (.inl rfl)
  have relaunched := (fanStateAfter_next ran .f1).symm.trans writingShortRunTime_relaunches
  rw [tripped] at relaunched
  cases relaunched

end Sys2Proof.Machine
